-- ==== Sys2Proof/Word.lean ====
section
/-! DEFINITION. The word types of the block (00_scope R8): bytes and 16-bit register values. -/

namespace Sys2Proof

/-- A byte: one buffer byte, a command identifier, a length, an 8-bit register (00_scope R8). -/
abbrev Byte := BitVec 8

/-- A 16-bit value: the accumulator, a stored CRC, a command word, a host data word (00_scope R8, 30_encoding R72). -/
abbrev Word16 := BitVec 16

end Sys2Proof
end

