-- ==== Sys2Proof/Config.lean ====
section
/-! DEFINITION. The implementation parameter IN_CAP and the free values of the block. A free value is an opaque constant
with no body: nothing in Lean can evaluate it or prove a value of it. -/

namespace Sys2Proof

/-- How far IN_CAP lies above its lower bound: any of the 65277 values that 00_scope R9 admits. No value is fixed
(DESIGN CHOICE, safe: log entry 5). -/
opaque Config.inCapExtra : Fin 65277

/-- IN_CAP, the capacity of IN_BUF in bytes: `259 <= IN_CAP <= 65535` (00_scope R9; decision D7 leaves it open). -/
def Config.inCap : Nat := Config.inCapExtra.val + 259

/-- The byte that the k-th host read of an unspecified location returns: "a draw: any byte" (20_memory R59).
`State.byteDraws` counts the draws (log entry 4). -/
opaque Config.freeByte : Nat → Byte

/-- The value T that the time source supplies to the k-th PING_BUILD: "a draw per command, under no law" (42_ping R152).
`State.timeDraws` counts the draws (log entry 4). -/
opaque Config.timeSource : Nat → BitVec 64

/-- What MSG_PAYLOAD byte i holds while nothing has written it: "no specified value" (10_state R31). A command reads such
a byte only in states that no run reaches (log entry 6). -/
opaque Config.unwrittenPayload : Nat → Byte

end Sys2Proof
end

