-- ==== Sys2Proof/Syntax.lean ====
section
/-! DEFINITION. The commands of the block: one constructor per row of spec/opcode_table.json (30_encoding R74). -/

namespace Sys2Proof

/-- A legal command. IMM8 is an operand of two commands only (30_encoding R73). -/
inductive Instr where
  /-- CRC_INIT (40_crc R103). -/
  | crcInit
  /-- CRC_FEED with the byte to feed (40_crc R104). -/
  | crcFeed (byte : Byte)
  /-- CRC_FEEDBUF (40_crc R105). -/
  | crcFeedbuf
  /-- MSG_ENCODE with the commandId (41_codec R120). -/
  | msgEncode (commandId : Byte)
  /-- MSG_SERIALIZE (41_codec R123). -/
  | msgSerialize
  /-- MSG_PARSE (41_codec R126). -/
  | msgParse
  /-- MSG_VALIDATE (41_codec R129). -/
  | msgValidate
  /-- PING_BUILD (42_ping R151). -/
  | pingBuild
deriving DecidableEq, Repr

end Sys2Proof
end

