-- ==== Sys2Proof/WellFormed.lean ====
section
/-! DEFINITION. Well-formed instructions, and the command words that match a row of the opcode table. -/

namespace Sys2Proof

/-- Every command value is well formed: the one bound the spec puts on an operand, 8 bits unsigned (30_encoding R73), is
carried by the operand's type. -/
def Instr.wellFormed : Instr → Bool
  | .crcInit => true
  | .crcFeed _ => true
  | .crcFeedbuf => true
  | .msgEncode _ => true
  | .msgSerialize => true
  | .msgParse => true
  | .msgValidate => true
  | .pingBuild => true

/-- One row of the opcode table: a word belongs to the row when it equals `pattern` on the bits of `mask`. -/
structure OpcodeRow where
  mnemonic : String
  mask     : Word16
  pattern  : Word16
deriving DecidableEq, Repr

/-- The rows of spec/opcode_table.json, in its order (30_encoding R74). -/
def opcodeTable : List OpcodeRow :=
  [ ⟨"CRC_INIT",      0xFFFF#16, 0x0100#16⟩,
    ⟨"CRC_FEED",      0xFF00#16, 0x0200#16⟩,
    ⟨"CRC_FEEDBUF",   0xFFFF#16, 0x0300#16⟩,
    ⟨"MSG_ENCODE",    0xFF00#16, 0x1000#16⟩,
    ⟨"MSG_SERIALIZE", 0xFFFF#16, 0x1100#16⟩,
    ⟨"MSG_PARSE",     0xFFFF#16, 0x1200#16⟩,
    ⟨"MSG_VALIDATE",  0xFFFF#16, 0x1300#16⟩,
    ⟨"PING_BUILD",    0xFFFF#16, 0x2000#16⟩ ]

/-- The word belongs to the row. -/
def OpcodeRow.covers (r : OpcodeRow) (w : Word16) : Bool := w &&& r.mask == r.pattern

/-- The word matches some row of the opcode table; every other word is illegal (30_encoding R75). -/
def wellFormedWord (w : Word16) : Bool := opcodeTable.any fun r => r.covers w

end Sys2Proof
end

