-- ==== Sys2Proof/Decode.lean ====
section
/-! DEFINITION. The decoder of command words (30_encoding R72-R76), total on the 65536 words, and after it the encoder. -/

namespace Sys2Proof

/-- Why a word decodes to ILLEGAL (30_encoding R75). -/
inductive DecodeError where
  /-- OP is none of the eight operation codes. -/
  | unknownOp (op : Byte)
  /-- OP takes no operand and IMM8 is not 0x00. -/
  | operandNotZero (op imm : Byte)
deriving DecidableEq, Repr

/-- OP, bits [15:8] of a command word (30_encoding R72). -/
def opField (w : Word16) : Byte := w.extractLsb' 8 8

/-- IMM8, bits [7:0] of a command word (30_encoding R72). -/
def immField (w : Word16) : Byte := w.extractLsb' 0 8

/-- A command word from its two fields (30_encoding R72). -/
def commandWord (op imm : Byte) : Word16 := op ++ imm

/-- A command that takes no operand requires IMM8 = 0x00 (30_encoding R73). -/
def noOperand (op imm : Byte) (i : Instr) : Except DecodeError Instr :=
  if imm = 0x00#8 then .ok i else .error (.operandNotZero op imm)

/-- The decode function of 30_encoding R76; an error is its ILLEGAL. -/
def decodeWord (w : Word16) : Except DecodeError Instr :=
  if opField w = 0x02#8 then .ok (.crcFeed (immField w))
  else if opField w = 0x10#8 then .ok (.msgEncode (immField w))
  else if opField w = 0x01#8 then noOperand (opField w) (immField w) .crcInit
  else if opField w = 0x03#8 then noOperand (opField w) (immField w) .crcFeedbuf
  else if opField w = 0x11#8 then noOperand (opField w) (immField w) .msgSerialize
  else if opField w = 0x12#8 then noOperand (opField w) (immField w) .msgParse
  else if opField w = 0x13#8 then noOperand (opField w) (immField w) .msgValidate
  else if opField w = 0x20#8 then noOperand (opField w) (immField w) .pingBuild
  else .error (.unknownOp (opField w))

/-- The operation code of a command (30_encoding R74, column OP). -/
def Instr.opcode : Instr → Byte
  | .crcInit => 0x01#8
  | .crcFeed _ => 0x02#8
  | .crcFeedbuf => 0x03#8
  | .msgEncode _ => 0x10#8
  | .msgSerialize => 0x11#8
  | .msgParse => 0x12#8
  | .msgValidate => 0x13#8
  | .pingBuild => 0x20#8

/-- The IMM8 field of a command (30_encoding R74, column IMM8). -/
def Instr.operand : Instr → Byte
  | .crcInit => 0x00#8
  | .crcFeed b => b
  | .crcFeedbuf => 0x00#8
  | .msgEncode c => c
  | .msgSerialize => 0x00#8
  | .msgParse => 0x00#8
  | .msgValidate => 0x00#8
  | .pingBuild => 0x00#8

/-- The one word of a command (30_encoding R72, R74; R77 lists the words). -/
def encode (i : Instr) : Word16 := commandWord i.opcode i.operand

/-- The command word whose lowest `nbits` bits are those of `w` and whose other bits are 0. -/
def tableWord (nbits w : Nat) : Word16 := BitVec.ofNat 16 (w % 2 ^ nbits)

/-- What the decoder reads from an opcode-table row's bits. Every command word is 16 bits long (30_encoding R72), so a
longer row is no command. -/
def decodeTableWord (nbits w : Nat) : Option Instr :=
  if 16 < nbits then none
  else
    match decodeWord (tableWord nbits w) with
    | .ok i => some i
    | .error _ => none

end Sys2Proof
end

