-- ==== Sys2Proof/Machine/State.lean ====
section
/-! DEFINITION. The state of the block (10_state), the host's operations (20_memory R63), and the state after reset
(70_reset_and_hazards R190). -/

namespace Sys2Proof.Machine

/-- A byte buffer: the bytes that hold a value, by rising index. An unlisted byte holds no value (70_reset R190). -/
abbrev Memory := List Host.Cell

/-- A place in one of the three buffer spaces; the index has the space's width (20_memory R51). -/
inductive BufIndex where
  /-- A byte of IN_BUF. -/
  | inBuf (i : BitVec 16)
  /-- A byte of OUT_BUF. -/
  | outBuf (i : BitVec 16)
  /-- A byte of MSG_PAYLOAD. -/
  | payload (i : BitVec 8)
deriving DecidableEq, Repr

/-- The host's operations on the block, "exactly these" (20_memory R63). -/
inductive HostOp where
  /-- RegRead(n). -/
  | regRead (n : BitVec 8)
  /-- RegWrite(n, v16); for n = 0x02 it also executes the command v16. -/
  | regWrite (n : BitVec 8) (v : Word16)
  /-- BufRead(space, i). -/
  | bufRead (a : BufIndex)
  /-- BufWrite(space, i, b8). -/
  | bufWrite (a : BufIndex) (b : Byte)
  /-- Reset(). -/
  | reset
deriving DecidableEq, Repr

/-- What a host operation returns (20_memory R63, column "returns"). -/
inductive HostReply where
  /-- The operation returns nothing. -/
  | nothing
  /-- RegRead's 16-bit value (10_state R40). -/
  | register (v : Word16)
  /-- BufRead's byte. -/
  | byte (b : Byte)
deriving DecidableEq, Repr

/-- The reasons the model stops with a fault. -/
inductive Fault where
  /-- Raised by CRC_FEEDBUF, MSG_ENCODE and MSG_PARSE when they read the IN_BUF byte at `index`, below IN_LEN, and the host
  has not written it since reset: the model-level fault UNWRITTEN_INPUT of 60_exceptions R166. Safe: the hardware goes on
  with an unspecified byte where the model stops. -/
  | unwrittenInput (index : Nat)
deriving DecidableEq, Repr

/-- The reasons the model gives an instruction no meaning. -/
inductive Refusal where
  /-- Raised by no arm of exec: every row of the opcode table has its meaning. Safe: it would stop the run. -/
  | notModelled (mnemonic : String)
deriving DecidableEq, Repr

/-- The state of the block and, last, the model's own fields for what lies outside it. -/
structure State where
  /-- ACC, register 0x00: the CRC Engine's accumulator (10_state R23). -/
  acc : Word16
  /-- STATUS.ERR, bits [2:0] of register 0x01 (10_state R24, R25). -/
  err : BitVec 3
  /-- STATUS.CHECKED, bit [3] (10_state R24). -/
  checked : Bool
  /-- STATUS.VALID, bit [4] (10_state R24). -/
  valid : Bool
  /-- STATUS.MSGP, bit [5] (10_state R24). -/
  msgp : Bool
  /-- CMD, register 0x02: the last command word written (10_state R26). -/
  cmd : Word16
  /-- IN_LEN, register 0x03 (10_state R34). -/
  inLen : Word16
  /-- OUT_LEN, register 0x04 (10_state R36). -/
  outLen : Word16
  /-- MSG_CMD, register 0x05 (10_state R28). -/
  msgCmd : Byte
  /-- MSG_LEN, register 0x06 (10_state R29). -/
  msgLen : Byte
  /-- MSG_CRC, register 0x07 (10_state R30). -/
  msgCrc : Word16
  /-- VER_MAJ, register 0x08 (10_state R38). -/
  verMaj : Byte
  /-- VER_MIN, register 0x09 (10_state R38). -/
  verMin : Byte
  /-- SCRATCH, the hidden accumulator of the codec commands (10_state R33). -/
  scratch : Word16
  /-- MSG_PAYLOAD, 255 bytes (10_state R31). -/
  msgPayload : Memory
  /-- IN_BUF, IN_CAP bytes (10_state R35). -/
  inBuf : Memory
  /-- OUT_BUF, 259 bytes (10_state R37). -/
  outBuf : Memory
  /-- MODEL'S OWN: the host operations still to come, in issue order (20_memory R55; log entry 2). -/
  hostOps : List HostOp
  /-- MODEL'S OWN: what the latest host operation returned (20_memory R63; log entry 3). -/
  reply : HostReply
  /-- MODEL'S OWN: how many unspecified bytes host reads have drawn (20_memory R59; log entry 4). -/
  byteDraws : Nat
  /-- MODEL'S OWN: how many time values PING_BUILD has drawn (42_ping R152; log entry 4). -/
  timeDraws : Nat
deriving DecidableEq, Repr

/-- The state after reset (70_reset R190). SCRATCH has no reset value in the spec: 0 is the model's (DESIGN CHOICE, unsafe:
log entry 1). -/
def State.reset : State where
  acc := 0xFFFF#16
  err := 0#3
  checked := false
  valid := false
  msgp := false
  cmd := 0x0000#16
  inLen := 0#16
  outLen := 0#16
  msgCmd := 0x00#8
  msgLen := 0x00#8
  msgCrc := 0x0000#16
  verMaj := 1#8
  verMin := 1#8
  scratch := 0x0000#16
  msgPayload := []
  inBuf := []
  outBuf := []
  hostOps := []
  reply := .nothing
  byteDraws := 0
  timeDraws := 0

end Sys2Proof.Machine
end

