-- ==== Sys2Proof/Machine/Flags.lean ====
section
/-! DEFINITION. STATUS: the codes of ERR (10_state R25), the word the host reads (R24), and the two ways a command changes
CHECKED, VALID and MSGP. -/

namespace Sys2Proof.Machine

/-- ERR code 0, OK: the command completed without error (10_state R25). -/
def errOk : BitVec 3 := 0#3
/-- ERR code 1, PAYLOAD_TOO_LARGE (10_state R25). -/
def errPayloadTooLarge : BitVec 3 := 1#3
/-- ERR code 2, TRUNCATED_MESSAGE (10_state R25). -/
def errTruncatedMessage : BitVec 3 := 2#3
/-- ERR code 3, NO_MESSAGE (10_state R25). -/
def errNoMessage : BitVec 3 := 3#3
/-- ERR code 4, ILLEGAL_COMMAND (10_state R25). -/
def errIllegalCommand : BitVec 3 := 4#3

/-- STATUS as the host reads it: bits [7:6] read as 0, then MSGP, VALID, CHECKED, ERR (10_state R24). -/
def statusWord (s : State) : Byte :=
  0#2 ++ BitVec.ofBool s.msgp ++ BitVec.ofBool s.valid ++ BitVec.ofBool s.checked ++ s.err

/-- Every command, successful or not, overwrites STATUS.ERR (60_exceptions R163). -/
def State.setErr (s : State) (code : BitVec 3) : State := { s with err := code }

/-- The held message was replaced: MSGP <- 1, CHECKED <- 0, VALID <- 0 (10_state R24). -/
def State.messageReplaced (s : State) : State := { s with msgp := true, checked := false, valid := false }

/-- MSG_VALIDATE's result: VALID <- v, CHECKED <- 1 (10_state R24, 41_codec R129). -/
def State.messageChecked (s : State) (v : Bool) : State := { s with valid := v, checked := true }

end Sys2Proof.Machine
end

