-- ==== Sys2Proof/Machine/Ops.lean ====
section
/-! DEFINITION. The named operations over buffers and registers, and raising an error. -/

namespace Sys2Proof.Machine

/-- The byte a buffer holds at index k; none where it holds no value. -/
def Memory.read : Memory → Nat → Option Byte
  | [], _ => none
  | (a, b) :: m, k => if k = a then some b else Memory.read m k

/-- `BUF[k] <- b` (00_scope R13), keeping the indices strictly rising. -/
def Memory.write : Memory → Nat → Byte → Memory
  | [], k, b => [(k, b)]
  | (a, c) :: m, k, b =>
    if k < a then (k, b) :: (a, c) :: m
    else if k = a then (k, b) :: m
    else (a, c) :: Memory.write m k b

/-- `MemWrite(space, k, |p|, p)` (00_scope R13): the bytes p from index k on. -/
def Memory.writeSeq (m : Memory) (k : Nat) : List Byte → Memory
  | [] => m
  | b :: p => Memory.writeSeq (Memory.write m k b) (k + 1) p

/-- The canonical form of a buffer: indices strictly rising. Every byte value may be listed, because an unlisted byte holds
no value at all. -/
abbrev Memory.wf (m : Memory) : Prop := m.Pairwise fun x y => x.1 < y.1

/-- Every listed index is below the capacity. -/
abbrev Memory.within (m : Memory) (cap : Nat) : Prop := ∀ c ∈ m, c.1 < cap

/-- The capacity of MSG_PAYLOAD in bytes (10_state R31). -/
abbrev payloadCap : Nat := 255
/-- The capacity of OUT_BUF in bytes (10_state R37). -/
abbrev outCap : Nat := 259

/-- `ACC <- v`. -/
def State.setAcc (s : State) (v : Word16) : State := { s with acc := v }
/-- `SCRATCH <- v` (10_state R33). -/
def State.setScratch (s : State) (v : Word16) : State := { s with scratch := v }
/-- `CMD <- w` (10_state R26). -/
def State.setCmd (s : State) (w : Word16) : State := { s with cmd := w }
/-- `IN_LEN <- v`. -/
def State.setInLen (s : State) (v : Word16) : State := { s with inLen := v }
/-- `VER_MAJ <- v`. -/
def State.setVerMaj (s : State) (v : Byte) : State := { s with verMaj := v }
/-- `VER_MIN <- v`. -/
def State.setVerMin (s : State) (v : Byte) : State := { s with verMin := v }
/-- `IN_BUF[i] <- b`. -/
def State.setInByte (s : State) (i : Nat) (b : Byte) : State := { s with inBuf := s.inBuf.write i b }
/-- The MSG group's four parts at once (10_state R27): MSG_CMD, MSG_LEN, MSG_PAYLOAD[0..|p|), MSG_CRC. -/
def State.setMessage (s : State) (commandId len : Byte) (p : List Byte) (crc : Word16) : State :=
  { s with msgCmd := commandId, msgLen := len, msgPayload := s.msgPayload.writeSeq 0 p, msgCrc := crc }
/-- `OUT_BUF[0..|f|) <- f; OUT_LEN <- |f|` (41_codec R123, 42_ping R151). -/
def State.setFrame (s : State) (f : List Byte) : State :=
  { s with outBuf := s.outBuf.writeSeq 0 f, outLen := BitVec.ofNat 16 f.length }
/-- One host operation leaves the list of pending ones and has returned nothing yet (log entries 2, 3). -/
def State.accept (s : State) (rest : List HostOp) : State := { s with hostOps := rest, reply := .nothing }
/-- The host operation under way returns r. -/
def State.setReply (s : State) (r : HostReply) : State := { s with reply := r }
/-- One unspecified byte was drawn (20_memory R59). -/
def State.countByteDraw (s : State) : State := { s with byteDraws := s.byteDraws + 1 }
/-- One time value was drawn (42_ping R152). -/
def State.countTimeDraw (s : State) : State := { s with timeDraws := s.timeDraws + 1 }

/-- `raise <Error>` (00_scope R13): the command ends with STATUS.ERR set and nothing else changed (60_exceptions R162). It
is all the exception entry the block has: nothing is saved, no mode changes, nothing vectors (60_exceptions R160, R168). -/
def State.raise (s : State) (code : BitVec 3) : State := s.setErr code

/-- A word that decodes to ILLEGAL: `STATUS.ERR <- ILLEGAL_COMMAND` and nothing else (60_exceptions R164). -/
def State.illegalCommand (s : State) : State := s.raise errIllegalCommand

end Sys2Proof.Machine
end

