-- ==== Sys2Proof/Machine/Operands.lean ====
section
/-! DEFINITION. The operands of the commands: the input sequence IN_BUF[0..IN_LEN), the payload of the held message, and
the byte orders and frame layout (20_memory R52, R53; 30_encoding R70). IMM8 is an argument of the command itself. -/

namespace Sys2Proof.Machine

/-- `MemRead(IN, i, n)` (00_scope R13): the n bytes of IN_BUF from index i on, lowest first; UNWRITTEN_INPUT at the first
one that holds no value (60_exceptions R166). -/
def readInput (m : Memory) : Nat → Nat → Except Fault (List Byte)
  | _, 0 => .ok []
  | i, n + 1 =>
    match m.read i with
    | none => .error (.unwrittenInput i)
    | some b =>
      match readInput m (i + 1) n with
      | .error f => .error f
      | .ok p => .ok (b :: p)

/-- MSG_PAYLOAD[i] as a command reads it: a byte that nothing has written is unspecified (log entry 6). -/
def payloadByte (m : Memory) (i : Nat) : Byte := (m.read i).getD (Config.unwrittenPayload i)

/-- MSG_PAYLOAD[0..MSG_LEN) (10_state R31). -/
def payloadBytes (s : State) : List Byte := (List.range s.msgLen.toNat).map (payloadByte s.msgPayload)

/-- `LE16(v)` (00_scope R13). -/
def le16 (v : Word16) : List Byte := [v.extractLsb' 0 8, v.extractLsb' 8 8]

/-- `fromLE16([lo, hi])` is `{hi, lo}` (00_scope R13). -/
def fromLe16 (lo hi : Byte) : Word16 := hi ++ lo

/-- `LE64(v)` (00_scope R13). -/
def le64 (v : BitVec 64) : List Byte :=
  [v.extractLsb' 0 8, v.extractLsb' 8 8, v.extractLsb' 16 8, v.extractLsb' 24 8,
   v.extractLsb' 32 8, v.extractLsb' 40 8, v.extractLsb' 48 8, v.extractLsb' 56 8]

/-- The bytes a message's CRC covers: `[commandId, length] ++ payload` (30_encoding R70). -/
def crcCovered (commandId len : Byte) (p : List Byte) : List Byte := commandId :: len :: p

/-- A frame: commandId, length, payload, CRC low byte first (30_encoding R70). -/
def frameBytes (commandId len : Byte) (p : List Byte) (crc : Word16) : List Byte :=
  crcCovered commandId len p ++ le16 crc

/-- CMD_PAYLOAD, the payload-data command identifier (30_encoding R71). -/
def cmdPayload : Byte := 0xFC#8
/-- CMD_PING, the ping command identifier (30_encoding R71). -/
def cmdPing : Byte := 0xFE#8

/-- The payload of a ping: `LE64(T) ++ [VER_MAJ, VER_MIN]` (42_ping R150). -/
def pingPayload (t : BitVec 64) (major minor : Byte) : List Byte := le64 t ++ [major, minor]

end Sys2Proof.Machine
end

