-- ==== Sys2Proof/Machine/Crc.lean ====
section
/-! DEFINITION. The CRC Engine (40_crc): the step, the fold, and the meanings of CRC_INIT, CRC_FEED and CRC_FEEDBUF. -/

namespace Sys2Proof.Machine

/-- `CrcStep(state16, byte8)` (40_crc R101). The 8-bit `tmp` is `tmp & 0xFF` of the formula; widened to 16 bits it is
shifted without losing a bit, as R101 shows. -/
def crcStep (state : Word16) (byte : Byte) : Word16 :=
  let tmp : Byte := byte ^^^ state.setWidth 8
  let tmp : Byte := tmp ^^^ (tmp <<< 4)
  let wide : Word16 := tmp.setWidth 16
  (state >>> 8) ^^^ (wide <<< 8) ^^^ (wide <<< 3) ^^^ (wide >>> 4)

/-- `CrcOf(init, seq)`: the fold of CrcStep in feed order (40_crc R102). -/
def crcOf (init : Word16) (seq : List Byte) : Word16 := seq.foldl crcStep init

/-- The initial value of a fresh CRC computation (40_crc R103). -/
def crcInitial : Word16 := 0xFFFF#16

/-- One bit of the bit-serial reflected CRC with constant 0x8408 (40_crc R109). -/
def crcBit (s : Word16) : Word16 := if s.getLsbD 0 then (s >>> 1) ^^^ 0x8408#16 else s >>> 1

/-- The bit-serial step: `s ^= b`, then eight single-bit steps (40_crc R109). No command uses it. -/
def crcStepBitSerial (s : Word16) (b : Byte) : Word16 :=
  crcBit (crcBit (crcBit (crcBit (crcBit (crcBit (crcBit (crcBit (s ^^^ b.setWidth 16))))))))

/-- CRC_INIT: `ACC <- 0xFFFF; STATUS.ERR <- OK` (40_crc R103). -/
def execCrcInit (s : State) : Host.Outcome State Fault Refusal :=
  .next ((s.setAcc crcInitial).setErr errOk)

/-- CRC_FEED: `ACC <- CrcStep(ACC, IMM8); STATUS.ERR <- OK` (40_crc R104). -/
def execCrcFeed (byte : Byte) (s : State) : Host.Outcome State Fault Refusal :=
  .next ((s.setAcc (crcStep s.acc byte)).setErr errOk)

/-- CRC_FEEDBUF: `ACC <- CrcOf(ACC, IN_BUF[0..IN_LEN)); STATUS.ERR <- OK` (40_crc R105). -/
def execCrcFeedbuf (s : State) : Host.Outcome State Fault Refusal :=
  match readInput s.inBuf 0 s.inLen.toNat with
  | .error f => .fault f
  | .ok p => .next ((s.setAcc (crcOf s.acc p)).setErr errOk)

end Sys2Proof.Machine
end

