-- ==== Sys2Proof/Machine/Codec.lean ====
section
/-! DEFINITION. The Message Codec (41_codec): the meanings of MSG_ENCODE, MSG_SERIALIZE, MSG_PARSE and MSG_VALIDATE. -/

namespace Sys2Proof.Machine

/-- The CRC of a message's fields by a fresh CRC Engine (41_codec R120, R129). -/
def fieldsCrc (commandId len : Byte) (p : List Byte) : Word16 := crcOf crcInitial (crcCovered commandId len p)

/-- The recomputed CRC of the held message: `CrcOf(0xFFFF, [MSG_CMD, MSG_LEN] ++ MSG_PAYLOAD[0..MSG_LEN))` (41_codec R129). -/
def messageCrc (s : State) : Word16 := fieldsCrc s.msgCmd s.msgLen (payloadBytes s)

/-- The encode path shared by MSG_ENCODE and PING_BUILD: the CRC is computed in SCRATCH, and the MSG group takes the
fields with that CRC (41_codec R120; 42_ping R151). The length byte is the payload's size (10_state R29). -/
def State.buildMessage (s : State) (commandId : Byte) (p : List Byte) : State :=
  let len : Byte := BitVec.ofNat 8 p.length
  let crc := fieldsCrc commandId len p
  ((s.setScratch crc).setMessage commandId len p crc).messageReplaced

/-- MSG_ENCODE (41_codec R120, R121). -/
def execMsgEncode (commandId : Byte) (s : State) : Host.Outcome State Fault Refusal :=
  if 255 < s.inLen.toNat then .next (s.raise errPayloadTooLarge)
  else
    match readInput s.inBuf 0 s.inLen.toNat with
    | .error f => .fault f
    | .ok p => .next ((s.buildMessage commandId p).setErr errOk)

/-- MSG_SERIALIZE (41_codec R123-R125): the MSG group as held, its CRC not recomputed. -/
def execMsgSerialize (s : State) : Host.Outcome State Fault Refusal :=
  if s.msgp = false then .next (s.raise errNoMessage)
  else .next ((s.setFrame (frameBytes s.msgCmd s.msgLen (payloadBytes s) s.msgCrc)).setErr errOk)

/-- MSG_PARSE (41_codec R126-R128), its reads and checks in the order of R126's pseudocode but where 60_exceptions R165
rules the fault out: it arises "only in step 4, after every check has passed". A length check whose outcome no unwritten byte
can change is therefore made first: one that fails for every length byte (IN_LEN < 4; R127 says so of IN_LEN < 2), and one
whose length byte is written, IN_BUF[0] not being needed (R162). DEDUCED, safe: log entry 7. -/
def execMsgParse (s : State) : Host.Outcome State Fault Refusal :=
  if s.inLen.toNat < 4 then .next (s.raise errTruncatedMessage)
  else
    match s.inBuf.read 0, s.inBuf.read 1 with
    | none, none => .fault (.unwrittenInput 0)
    | some _, none => .fault (.unwrittenInput 1)
    | first, some len =>
      if s.inLen.toNat < 4 + len.toNat then .next (s.raise errTruncatedMessage)
      else
        match first, readInput s.inBuf 2 len.toNat with
        | none, _ => .fault (.unwrittenInput 0)
        | some _, .error f => .fault f
        | some c, .ok p =>
          match s.inBuf.read (2 + len.toNat), s.inBuf.read (3 + len.toNat) with
          | none, _ => .fault (.unwrittenInput (2 + len.toNat))
          | some _, none => .fault (.unwrittenInput (3 + len.toNat))
          | some lo, some hi => .next (((s.setMessage c len p (fromLe16 lo hi)).messageReplaced).setErr errOk)

/-- MSG_VALIDATE (41_codec R129-R131): a mismatch is VALID = 0, not an error. -/
def execMsgValidate (s : State) : Host.Outcome State Fault Refusal :=
  if s.msgp = false then .next (s.raise errNoMessage)
  else .next (((s.setScratch (messageCrc s)).messageChecked (messageCrc s == s.msgCrc)).setErr errOk)

end Sys2Proof.Machine
end

