-- ==== Sys2Proof/Machine/Ping.lean ====
section
/-! DEFINITION. The Ping Message Builder (42_ping): the meaning of PING_BUILD. -/

namespace Sys2Proof.Machine

/-- The payload PING_BUILD forms: the next time value of the time source, then the version registers (42_ping R150, R151).
The time value is a free value (log entry 4). -/
def pingPayloadNow (s : State) : List Byte := pingPayload (Config.timeSource s.timeDraws) s.verMaj s.verMin

/-- The frame of a ping with payload p: commandId 0xFE, the payload's length, the payload, its CRC (42_ping R150). -/
def pingFrame (p : List Byte) : List Byte :=
  let len : Byte := BitVec.ofNat 8 p.length
  frameBytes cmdPing len p (fieldsCrc cmdPing len p)

/-- PING_BUILD (42_ping R151): draw T, build the message, write its frame to OUT_BUF. -/
def execPingBuild (s : State) : Host.Outcome State Fault Refusal :=
  let p := pingPayloadNow s
  .next (((s.countTimeDraw.buildMessage cmdPing p).setFrame (pingFrame p)).setErr errOk)

end Sys2Proof.Machine
end

