-- ==== Sys2Proof/Machine/Dispatch.lean ====
section
/-! DEFINITION. One arm per command of the opcode table, each one direct call of its meaning. -/

namespace Sys2Proof.Machine

def exec (i : Instr) (s : State) : Host.Outcome State Fault Refusal :=
  match i with
  | .crcInit => Sys2Proof.Machine.execCrcInit s
  | .crcFeed byte => Sys2Proof.Machine.execCrcFeed byte s
  | .crcFeedbuf => Sys2Proof.Machine.execCrcFeedbuf s
  | .msgEncode commandId => Sys2Proof.Machine.execMsgEncode commandId s
  | .msgSerialize => Sys2Proof.Machine.execMsgSerialize s
  | .msgParse => Sys2Proof.Machine.execMsgParse s
  | .msgValidate => Sys2Proof.Machine.execMsgValidate s
  | .pingBuild => Sys2Proof.Machine.execPingBuild s

end Sys2Proof.Machine
end

