-- ==== Sys2Proof/Machine/HostOps.lean ====
section
/-! DEFINITION. The host interface: what each host operation of 20_memory R63 does to the block, and the execution of a
command word written to CMD. -/

namespace Sys2Proof.Machine

/-- The number of register ACC (10_state R20). -/
def regAcc : BitVec 8 := 0x00#8
/-- The number of register STATUS (10_state R20). -/
def regStatus : BitVec 8 := 0x01#8
/-- The number of register CMD (10_state R20). -/
def regCmd : BitVec 8 := 0x02#8
/-- The number of register IN_LEN (10_state R20). -/
def regInLen : BitVec 8 := 0x03#8
/-- The number of register OUT_LEN (10_state R20). -/
def regOutLen : BitVec 8 := 0x04#8
/-- The number of register MSG_CMD (10_state R20). -/
def regMsgCmd : BitVec 8 := 0x05#8
/-- The number of register MSG_LEN (10_state R20). -/
def regMsgLen : BitVec 8 := 0x06#8
/-- The number of register MSG_CRC (10_state R20). -/
def regMsgCrc : BitVec 8 := 0x07#8
/-- The number of register VER_MAJ (10_state R20). -/
def regVerMaj : BitVec 8 := 0x08#8
/-- The number of register VER_MIN (10_state R20). -/
def regVerMin : BitVec 8 := 0x09#8

/-- The value a host read of register n returns: zero-extended to 16 bits (10_state R40), 0 for a reserved number (R41). -/
def regValue (n : BitVec 8) (s : State) : Word16 :=
  if n = regAcc then s.acc
  else if n = regStatus then (statusWord s).setWidth 16
  else if n = regCmd then s.cmd
  else if n = regInLen then s.inLen
  else if n = regOutLen then s.outLen
  else if n = regMsgCmd then s.msgCmd.setWidth 16
  else if n = regMsgLen then s.msgLen.setWidth 16
  else if n = regMsgCrc then s.msgCrc
  else if n = regVerMaj then s.verMaj.setWidth 16
  else if n = regVerMin then s.verMin.setWidth 16
  else 0x0000#16

/-- A host write of w to CMD: w is stored, then the command it encodes is executed (10_state R26); a word that decodes to
ILLEGAL executes as ILLEGAL_COMMAND (60_exceptions R164). -/
def issueCommand (w : Word16) (s : State) : Host.Outcome State Fault Refusal :=
  match decodeWord w with
  | .ok i => exec i (s.setCmd w)
  | .error _ => .next (s.setCmd w).illegalCommand

/-- A host write to register n: CMD issues a command, IN_LEN takes a legal length only (10_state R34), the version
registers take the low byte (R40), and a write to any other number is ignored (R41, R42). -/
def regWrite (n : BitVec 8) (v : Word16) (s : State) : Host.Outcome State Fault Refusal :=
  if n = regCmd then issueCommand v s
  else if n = regInLen then .next (if v.toNat ≤ Config.inCap then s.setInLen v else s)
  else if n = regVerMaj then .next (s.setVerMaj (v.setWidth 8))
  else if n = regVerMin then .next (s.setVerMin (v.setWidth 8))
  else .next s

/-- The byte a host read of a buffer returns where the spec gives it, 0 at or beyond the capacity (20_memory R60); none
where it is unspecified (R59). -/
def bufByte (a : BufIndex) (s : State) : Option Byte :=
  match a with
  | .inBuf i => if i.toNat < Config.inCap then s.inBuf.read i.toNat else some 0x00#8
  | .outBuf i =>
    if i.toNat < outCap then
      if i.toNat < s.outLen.toNat then s.outBuf.read i.toNat else none
    else some 0x00#8
  | .payload i =>
    if i.toNat < payloadCap then
      if s.msgp = true ∧ i.toNat < s.msgLen.toNat then s.msgPayload.read i.toNat else none
    else some 0x00#8

/-- A host read of a buffer byte: the byte the spec gives, or a free value where it gives none (20_memory R59). -/
def bufRead (a : BufIndex) (s : State) : State :=
  match bufByte a s with
  | some b => s.setReply (.byte b)
  | none => (s.setReply (.byte (Config.freeByte s.byteDraws))).countByteDraw

/-- A host write of a buffer byte: only IN_BUF below its capacity takes it (20_memory R60, R63). -/
def bufWrite (a : BufIndex) (b : Byte) (s : State) : State :=
  match a with
  | .inBuf i => if i.toNat < Config.inCap then s.setInByte i.toNat b else s
  | .outBuf _ => s
  | .payload _ => s

/-- Reset() (70_reset R190). What lies outside the block goes on: the host's later operations and the counts of free
values already drawn. -/
def hostReset (s : State) : State :=
  { State.reset with hostOps := s.hostOps, byteDraws := s.byteDraws, timeDraws := s.timeDraws }

/-- One host operation on the block (20_memory R63). -/
def hostOp (op : HostOp) (s : State) : Host.Outcome State Fault Refusal :=
  match op with
  | .regRead n => .next (s.setReply (.register (regValue n s)))
  | .regWrite n v => regWrite n v s
  | .bufRead a => .next (bufRead a s)
  | .bufWrite a b => .next (bufWrite a b s)
  | .reset => .next (hostReset s)

/-- The block takes the next pending host operation; with none pending nothing happens (60_exceptions R173). -/
def hostStep (s : State) : Host.Outcome State Fault Refusal :=
  match s.hostOps with
  | [] => .next s
  | op :: rest => hostOp op (s.accept rest)

/-- The host operations of a sequence, one after the other, each a step of its own (20_memory R55). -/
def runHostOps : List HostOp → State → Host.Outcome State Fault Refusal
  | [], s => .next s
  | op :: ops, s =>
    match hostOp op (s.accept s.hostOps) with
    | .next t => runHostOps ops t
    | .fault f => .fault f
    | .refused r => .refused r

end Sys2Proof.Machine
end

