-- ==== Sys2Proof/Machine/Step.lean ====
section
/-! DEFINITION. One step of the machine is one host operation (20_memory R55), and how a command word is placed so that
the next step runs it. -/

namespace Sys2Proof.Machine

/-- One step: the next host operation, which for a write to CMD is the command it encodes (10_state R26). -/
def step (s : State) : Host.Outcome State Fault Refusal := hostStep s

/-- The block fetches nothing: a command arrives when the host writes it to CMD (10_state R22). The word is placed as the
host's next operation, a write to CMD, before those already pending (log entry 2). -/
def State.withFetchWord (s : State) (nbits w : Nat) : State :=
  { s with hostOps := .regWrite regCmd (tableWord nbits w) :: s.hostOps }

end Sys2Proof.Machine
end

