-- ==== Sys2Proof/Machine/Assembler.lean ====
section
/-! DEFINITION. The spec's assembly statements and pseudo-instructions (30_encoding R77, R78) as the host operations they
stand for. A statement is given by its parts, not by its text. -/

namespace Sys2Proof.Machine

/-- An assembly statement (30_encoding R77) or a pseudo-instruction of fixed expansion (R78). -/
inductive AsmStmt where
  /-- The eight command statements `crc.init` to `ping`. -/
  | command (i : Instr)
  /-- `wr REG, V`. -/
  | wr (reg : BitVec 8) (v : Word16)
  /-- `rd REG`. -/
  | rd (reg : BitVec 8)
  /-- `wrin I, B0, ..., Bk`. -/
  | wrin (i : BitVec 16) (bytes : List Byte)
  /-- `rdbuf SPACE, I`. -/
  | rdbuf (a : BufIndex)
  /-- `msg.payload`. -/
  | msgPayload
  /-- `msg.pingenc`. -/
  | msgPingenc
  /-- `crc.bytes B0, ..., Bk`. -/
  | crcBytes (bytes : List Byte)
  /-- `crc.of B0, ..., Bk`. -/
  | crcOf (bytes : List Byte)
  /-- `load.in B0, ..., Bk`, also with no bytes. -/
  | loadIn (bytes : List Byte)
deriving DecidableEq, Repr

/-- "A command statement stands for the host step `RegWrite(0x02, word)`" (30_encoding R77). -/
def commandOp (i : Instr) : HostOp := .regWrite regCmd (encode i)

/-- `BufWrite(IN, i+j, Bj)` for j = 0..k, in order (30_encoding R77); no operation for no bytes (DESIGN CHOICE, safe: log entry
8). -/
def wrinOps (i : Nat) : List Byte → List HostOp
  | [] => []
  | b :: bytes => .bufWrite (.inBuf (BitVec.ofNat 16 i)) b :: wrinOps (i + 1) bytes

/-- `crc.feed B0` ... `crc.feed Bk` (30_encoding R78); no operation for no bytes (DESIGN CHOICE, safe: log entry 8). -/
def crcBytesOps (bytes : List Byte) : List HostOp := bytes.map fun b => commandOp (.crcFeed b)

/-- `wrin 0, B0, ..., Bk` then `wr IN_LEN, k+1` (30_encoding R78). -/
def loadInOps (bytes : List Byte) : List HostOp :=
  wrinOps 0 bytes ++ [.regWrite regInLen (BitVec.ofNat 16 bytes.length)]

/-- The host operations a statement stands for (30_encoding R77, R78). Where the spec gives no expansion the choice is the
model's (DESIGN CHOICE, safe: log entry 8): none where an index or a length does not fit the 16 bits of its field (20_memory
R51; 10_state R34); with no bytes, a form R78 gives for `load.in` only, `wrin` and `crc.bytes` stand for no operation and
`crc.of` for `crc.init` alone; `wr` and `rd` take any register number. -/
def assemble : AsmStmt → Option (List HostOp)
  | .command i => some [commandOp i]
  | .wr reg v => some [.regWrite reg v]
  | .rd reg => some [.regRead reg]
  | .wrin i bytes => if i.toNat + bytes.length ≤ 65536 then some (wrinOps i.toNat bytes) else none
  | .rdbuf a => some [.bufRead a]
  | .msgPayload => some [commandOp (.msgEncode cmdPayload)]
  | .msgPingenc => some [commandOp (.msgEncode cmdPing)]
  | .crcBytes bytes => some (crcBytesOps bytes)
  | .crcOf bytes => some (commandOp .crcInit :: crcBytesOps bytes)
  | .loadIn bytes => if bytes.length ≤ 65535 then some (loadInOps bytes) else none

/-- The outcome of o followed by f where o is a next state. -/
def andThen (o : Host.Outcome State Fault Refusal) (f : State → Host.Outcome State Fault Refusal) :
    Host.Outcome State Fault Refusal :=
  match o with
  | .next t => f t
  | .fault r => .fault r
  | .refused r => .refused r

/-- The byte of the latest host read. -/
def replyByte : HostReply → Byte
  | .nothing => 0x00#8
  | .register v => v.setWidth 8
  | .byte b => b

/-- The loop of `copy.out` over n indices from j on: `rdbuf OUT, j`, then `wrin j, <that byte>` (30_encoding R78). -/
def copyOutLoop : Nat → Nat → State → Host.Outcome State Fault Refusal
  | 0, _, s => .next s
  | n + 1, j, s =>
    andThen (runHostOps [.bufRead (.outBuf (BitVec.ofNat 16 j))] s) fun t =>
      andThen (runHostOps [.bufWrite (.inBuf (BitVec.ofNat 16 j)) (replyByte t.reply)] t) fun u =>
        copyOutLoop n (j + 1) u

/-- The host loop `copy.out`: OUT_LEN is read first, the frame is copied to IN_BUF, IN_LEN takes OUT_LEN (30_encoding R78). -/
def copyOut (s : State) : Host.Outcome State Fault Refusal :=
  andThen (runHostOps [.regRead regOutLen] s) fun t =>
    andThen (copyOutLoop s.outLen.toNat 0 t) fun u =>
      runHostOps [.regWrite regInLen s.outLen] u

end Sys2Proof.Machine
end

