-- ==== Sys2Proof/Safety.lean ====
section
/-! DEFINITION. The terms the statements use: what a buffer holds, what a command leaves alone, and the invariants of the
block. -/

namespace Sys2Proof.Machine

/-- The buffer holds the bytes p from index i on: `BUF[i..i+|p|) = p` (00_scope R12). -/
def Memory.Holds (m : Memory) (i : Nat) (p : List Byte) : Prop := ∀ j, j < p.length → m.read (i + j) = p[j]?

/-- The input sequence IN_BUF[0..IN_LEN) is p. -/
def InputIs (s : State) (p : List Byte) : Prop := s.inLen.toNat = p.length ∧ s.inBuf.Holds 0 p

/-- The MSG group holds commandId c, payload p and CRC k. -/
structure MessageIs (s : State) (c : Byte) (p : List Byte) (k : Word16) : Prop where
  commandId : s.msgCmd = c
  length    : s.msgLen.toNat = p.length
  payload   : s.msgPayload.Holds 0 p
  crc       : s.msgCrc = k

/-- OUT_BUF[0..OUT_LEN) is f. -/
def OutputIs (s : State) (f : List Byte) : Prop := s.outLen.toNat = f.length ∧ s.outBuf.Holds 0 f

/-- IN_LEN and every byte of IN_BUF are unchanged. -/
def SameInput (s t : State) : Prop := t.inLen = s.inLen ∧ ∀ a, t.inBuf.read a = s.inBuf.read a

/-- OUT_LEN and every byte of OUT_BUF are unchanged. -/
def SameOutput (s t : State) : Prop := t.outLen = s.outLen ∧ ∀ a, t.outBuf.read a = s.outBuf.read a

/-- MSG_CMD, MSG_LEN, MSG_CRC and every byte of MSG_PAYLOAD are unchanged. -/
def SameMessage (s t : State) : Prop :=
  t.msgCmd = s.msgCmd ∧ t.msgLen = s.msgLen ∧ t.msgCrc = s.msgCrc ∧ ∀ a, t.msgPayload.read a = s.msgPayload.read a

/-- MSGP, CHECKED and VALID are unchanged. -/
def SameFlags (s t : State) : Prop := t.msgp = s.msgp ∧ t.checked = s.checked ∧ t.valid = s.valid

/-- What no command touches: CMD, the version registers, and the model's own fields for the host (its pending operations,
the latest reply, the count of drawn bytes). -/
def SameSurroundings (s t : State) : Prop :=
  t.cmd = s.cmd ∧ t.verMaj = s.verMaj ∧ t.verMin = s.verMin ∧
    t.hostOps = s.hostOps ∧ t.reply = s.reply ∧ t.byteDraws = s.byteDraws

/-- The invariants that "after every command" hold (10_state R44). -/
structure CommandInvariants (s : State) : Prop where
  /-- R44 (a). -/
  noMessage : s.msgp = false → s.checked = false ∧ s.valid = false
  /-- R44 (b). -/
  checkedIsResult : s.checked = true → s.valid = (messageCrc s == s.msgCrc)
  /-- R44 (c). -/
  unchecked : s.checked = false → s.valid = false
  /-- R44 (d). -/
  outLen : s.outLen.toNat = 0 ∨ (4 ≤ s.outLen.toNat ∧ s.outLen.toNat ≤ 259)
  /-- R44 (e). -/
  inLen : s.inLen.toNat ≤ Config.inCap

/-- A buffer in canonical form within its capacity. -/
def Memory.Fits (m : Memory) (cap : Nat) : Prop := m.wf ∧ m.within cap

/-- The invariant of the model: R44; the buffers are canonical and within their capacities (20_memory R51, R58); the held
payload and the written frame hold values (10_state R31, R37); ERR is one of its five codes (R25). -/
structure Inv (s : State) : Prop where
  command : CommandInvariants s
  inFits  : s.inBuf.Fits Config.inCap
  outFits : s.outBuf.Fits outCap
  payFits : s.msgPayload.Fits payloadCap
  payload : s.msgp = true → ∀ i, i < s.msgLen.toNat → (s.msgPayload.read i).isSome
  frame   : ∀ i, i < s.outLen.toNat → (s.outBuf.read i).isSome
  err     : s.err.toNat ≤ 4

/-- Two outcomes that differ in SCRATCH alone (10_state R33). -/
def DifferInScratch : Host.Outcome State Fault Refusal → Host.Outcome State Fault Refusal → Prop
  | .next t, .next u => ∃ y, u = { t with scratch := y }
  | .fault f, .fault g => f = g
  | .refused q, .refused r => q = r
  | .next _, .fault _ => False
  | .next _, .refused _ => False
  | .fault _, .next _ => False
  | .fault _, .refused _ => False
  | .refused _, .next _ => False
  | .refused _, .fault _ => False

end Sys2Proof.Machine
end

