-- ==== Sys2Proof/Certificates/Slice0/Obligations.lean ====
section
/-! DEFINITION. The statements for the provers: one `def Obligations.<Name> : Prop` each, with the rule or section of spec/
it formalises. -/

open Sys2Proof Sys2Proof.Machine

/-! ## Encodings (30_encoding) -/

/-- Decoding the word of a well-formed command gives the command back, operand included (30_encoding R72-R74, R76). -/
def Obligations.DecodeOfEncodeIsTheCommand : Prop :=
  ∀ i : Instr, i.wellFormed = true → decodeWord (encode i) = .ok i

/-- A word that decodes to a command is that command's one word, so no two words mean the same command (30_encoding R74, R76). -/
def Obligations.DecodedWordIsTheEncoding : Prop :=
  ∀ (w : Word16) (i : Instr), decodeWord w = .ok i → encode i = w

/-- Decoding is total: each word matches exactly one row of the table and decodes to a command, or matches none, decodes to
an error and, written to CMD, executes as ILLEGAL_COMMAND; the words of no row are those with an unknown OP and those whose
IMM8 must be 0x00 but is not (30_encoding R75). -/
def Obligations.EveryWordIsOneRowOrIllegal : Prop :=
  ∀ w : Word16,
    (wellFormedWord w = true → ∃ i, decodeWord w = .ok i) ∧
    (∀ r ∈ opcodeTable, ∀ q ∈ opcodeTable, r.covers w = true → q.covers w = true → r = q) ∧
    (wellFormedWord w = false → (∃ e, decodeWord w = .error e) ∧
      ∀ (s : State) (rest : List HostOp), s.hostOps = .regWrite 0x02#8 w :: rest →
        step s = .next { s with hostOps := rest, reply := .nothing, cmd := w, err := 4#3 }) ∧
    (wellFormedWord w = false ↔
      (opField w ∉ [0x01#8, 0x02#8, 0x03#8, 0x10#8, 0x11#8, 0x12#8, 0x13#8, 0x20#8] ∨
       (opField w ∈ [0x01#8, 0x03#8, 0x11#8, 0x12#8, 0x13#8, 0x20#8] ∧ immField w ≠ 0x00#8)))

/-- Words written out bit by bit from the encodings of 30_encoding R74 and R77 decode to the commands they stand for, and
illegal words of 95_test_vectors 2.5 decode to no command; the words of R77 are the encodings of their commands. -/
def Obligations.SampleWordsDecodeAsTabulated : Prop :=
  decodeWord 0b0000000100000000#16 = .ok .crcInit ∧
  decodeWord 0b0000001000110001#16 = .ok (.crcFeed 0x31#8) ∧
  decodeWord 0b0000001011111111#16 = .ok (.crcFeed 0xFF#8) ∧
  decodeWord 0b0000001100000000#16 = .ok .crcFeedbuf ∧
  decodeWord 0b0001000011111110#16 = .ok (.msgEncode 0xFE#8) ∧
  decodeWord 0b0001000100000000#16 = .ok .msgSerialize ∧
  decodeWord 0b0001001000000000#16 = .ok .msgParse ∧
  decodeWord 0b0001001100000000#16 = .ok .msgValidate ∧
  decodeWord 0b0010000000000000#16 = .ok .pingBuild ∧
  decodeWord 0x0000#16 = .error (.unknownOp 0x00#8) ∧
  decodeWord 0x0400#16 = .error (.unknownOp 0x04#8) ∧
  decodeWord 0x01FF#16 = .error (.operandNotZero 0x01#8 0xFF#8) ∧
  decodeWord 0x2001#16 = .error (.operandNotZero 0x20#8 0x01#8) ∧
  encode .crcInit = 0x0100#16 ∧ encode (.crcFeed 0xA5#8) = 0x02A5#16 ∧ encode .crcFeedbuf = 0x0300#16 ∧
  encode (.msgEncode 0xFC#8) = 0x10FC#16 ∧ encode .msgSerialize = 0x1100#16 ∧ encode .msgParse = 0x1200#16 ∧
  encode .msgValidate = 0x1300#16 ∧ encode .pingBuild = 0x2000#16

/-- A word that decodes to no command writes STATUS.ERR <- ILLEGAL_COMMAND and changes nothing else but CMD, which holds the
word; the host's write has left the list of pending operations (60_exceptions R164). -/
def Obligations.IllegalWordSetsErrAndCmdOnly : Prop :=
  ∀ (s : State) (w : Word16) (rest : List HostOp),
    s.hostOps = .regWrite 0x02#8 w :: rest → (∀ i, decodeWord w ≠ .ok i) →
      step s = .next { s with hostOps := rest, reply := .nothing, cmd := w, err := 4#3 }

/-! ## The step -/

/-- When the host's next operation writes to CMD a word that decodes to the well-formed command i, the step is exec of i at
the state in which that operation has been taken, nothing has been returned, and CMD holds the word (10_state R26). -/
def Obligations.StepRunsTheDecodedCommand : Prop :=
  ∀ (s : State) (w : Word16) (rest : List HostOp) (i : Instr),
    s.hostOps = .regWrite 0x02#8 w :: rest → decodeWord w = .ok i → i.wellFormed = true →
      step s = exec i { s with hostOps := rest, reply := .nothing, cmd := w }

/-- A host write of w to CMD stores w and then executes, in the same step, the command w encodes; CMD changes by such a write
and by Reset only; a host read of CMD returns the last word written and changes nothing of the block; CMD is 0x0000 after
reset, and Reset issues no command: it leaves CMD at 0x0000 and STATUS.ERR at OK (10_state R26). -/
def Obligations.CmdHoldsTheLastWordWritten : Prop :=
  (∀ (s t : State) (w : Word16) (rest : List HostOp), s.hostOps = .regWrite 0x02#8 w :: rest →
    (∀ i, decodeWord w = .ok i → step s = exec i { s with hostOps := rest, reply := .nothing, cmd := w }) ∧
    (step s = .next t → t.cmd = w)) ∧
  (∀ s t : State, step s = .next t → t.cmd ≠ s.cmd →
    (∃ rest, s.hostOps = .reset :: rest) ∨ ∃ w rest, s.hostOps = .regWrite 0x02#8 w :: rest) ∧
  (∀ (s : State) (rest : List HostOp), s.hostOps = .regRead 0x02#8 :: rest →
    step s = .next { s with hostOps := rest, reply := .register s.cmd }) ∧
  State.reset.cmd = 0x0000#16 ∧
  (∀ (s : State) (rest : List HostOp), s.hostOps = .reset :: rest →
    ∃ t, step s = .next t ∧ t.cmd = 0x0000#16 ∧ t.err = 0#3)

/-- With no host operation pending the block does nothing (60_exceptions R173). -/
def Obligations.BlockIsIdleWithoutHostOperation : Prop :=
  ∀ s : State, s.hostOps = [] → step s = .next s

/-! ## The CRC Engine (40_crc) -/

/-- CrcStep is exactly the formula of 40_crc R101 on unbounded natural numbers, with its width bounds: tmp fits in 8 bits
after each line, `tmp << 8` in bits [15:8], `tmp << 3` in bits [10:3], and the result in 16 bits. -/
def Obligations.CrcStepIsTheSourceFormula : Prop :=
  ∀ (s : Word16) (b : Byte),
    let tmp1 := (b.toNat &&& 0xFF) ^^^ (s.toNat &&& 0xFF)
    let tmp2 := tmp1 ^^^ ((tmp1 <<< 4) &&& 0xFF)
    let result := ((s.toNat >>> 8) &&& 0xFF) ^^^ (tmp2 <<< 8) ^^^ (tmp2 <<< 3) ^^^ ((tmp2 >>> 4) &&& 0xFF)
    tmp1 ≤ 0xFF ∧ tmp2 ≤ 0xFF ∧ (tmp2 <<< 8) &&& 0xFF00 = tmp2 <<< 8 ∧ (tmp2 <<< 3) &&& 0x07F8 = tmp2 <<< 3 ∧
      ((s.toNat >>> 8) &&& 0xFF) ≤ 0xFF ∧ ((tmp2 >>> 4) &&& 0xFF) ≤ 0xFF ∧ result < 65536 ∧
      (crcStep s b).toNat = result

/-- The formula equals the bit-serial reflected CRC with constant 0x8408 on every state and byte (40_crc R109). -/
def Obligations.CrcStepEqualsBitSerialCrc : Prop :=
  ∀ (s : Word16) (b : Byte), crcStep s b = crcStepBitSerial s b

/-- Feeding is compositional, and a sequence fed by one CRC_FEEDBUF, by two CRC_FEEDBUFs over its parts, or byte by byte by
CRC_FEED gives the same ACC (40_crc R107). -/
def Obligations.CrcFeedingIsCompositional : Prop :=
  (∀ s : Word16, crcOf s [] = s) ∧
  (∀ (s : Word16) (a b : List Byte), crcOf s (a ++ b) = crcOf (crcOf s a) b) ∧
  (∀ (s s1 s2 : State) (a b : List Byte), InputIs s (a ++ b) → InputIs s1 a → InputIs s2 b → s1.acc = s.acc →
    ∃ t t1, exec .crcFeedbuf s = .next t ∧ exec .crcFeedbuf s1 = .next t1 ∧
      (s2.acc = t1.acc → ∃ t2, exec .crcFeedbuf s2 = .next t2 ∧ t2.acc = t.acc)) ∧
  (∀ (s s1 : State) (a : List Byte), InputIs s a → s1.acc = s.acc →
    ∃ t t1, exec .crcFeedbuf s = .next t ∧ runHostOps (crcBytesOps a) s1 = .next t1 ∧ t1.acc = t.acc)

/-- The zero residue: any sequence followed by its own CRC, low byte first, leaves 0x0000; the two facts it rests on; and a
host's check of a whole valid frame by CRC_INIT and CRC_FEEDBUF (40_crc R108). -/
def Obligations.ValidFrameLeavesZeroResidue : Prop :=
  (∀ d : List Byte, crcOf 0xFFFF#16 (d ++ le16 (crcOf 0xFFFF#16 d)) = 0x0000#16) ∧
  (∀ s : Word16, crcStep s (s.extractLsb' 0 8) = (s.extractLsb' 8 8).setWidth 16 ∧
    crcStep (crcStep s (s.extractLsb' 0 8)) (s.extractLsb' 8 8) = 0x0000#16) ∧
  (∀ (s : State) (c len : Byte) (p : List Byte), len.toNat = p.length →
    InputIs s ([c, len] ++ p ++ le16 (crcOf 0xFFFF#16 ([c, len] ++ p))) →
      ∃ t u, exec .crcInit s = .next t ∧ exec .crcFeedbuf t = .next u ∧ u.acc = 0x0000#16)

/-- CRC_INIT completes in every state: ACC <- 0xFFFF, ERR <- OK, nothing else (40_crc R103). CRC_FEED completes in every
state for every byte: ACC <- CrcStep(ACC, byte), ERR <- OK, nothing else (R104). -/
def Obligations.CrcInitAndCrcFeedResults : Prop :=
  (∀ s : State, exec .crcInit s = .next { s with acc := 0xFFFF#16, err := 0#3 }) ∧
  (∀ (s : State) (b : Byte), exec (.crcFeed b) s = .next { s with acc := crcStep s.acc b, err := 0#3 })

/-- CRC_FEEDBUF completes whenever IN_BUF[0..IN_LEN) holds values, whatever they are: ACC <- CrcOf(ACC, IN_BUF[0..IN_LEN)),
ERR <- OK, nothing else; with IN_LEN = 0 it changes ERR only (40_crc R105). -/
def Obligations.CrcFeedbufResult : Prop :=
  ∀ (s : State) (p : List Byte), InputIs s p →
    exec .crcFeedbuf s = .next { s with acc := crcOf s.acc p, err := 0#3 }

/-- Reading ACC returns it and changes nothing of the block, and no command but CRC_INIT, CRC_FEED and CRC_FEEDBUF and no
host operation but Reset changes ACC (40_crc R106). -/
def Obligations.AccChangesByCrcCommandsOnly : Prop :=
  (∀ (s : State) (rest : List HostOp), s.hostOps = .regRead 0x00#8 :: rest →
    step s = .next { s with hostOps := rest, reply := .register s.acc }) ∧
  (∀ s t : State, step s = .next t → t.acc ≠ s.acc →
    (∃ rest, s.hostOps = .reset :: rest) ∨
    ∃ w rest i, s.hostOps = .regWrite 0x02#8 w :: rest ∧ decodeWord w = .ok i ∧
      (i = .crcInit ∨ (∃ b, i = .crcFeed b) ∨ i = .crcFeedbuf))

/-- The frame of the CRC commands: they change ACC and STATUS.ERR only. Every byte of every buffer, MSGP, CHECKED, VALID,
SCRATCH and every other register are unchanged (40_crc R103-R105). -/
def Obligations.CrcCommandsFrame : Prop :=
  ∀ (i : Instr) (s t : State), (i = .crcInit ∨ (∃ b, i = .crcFeed b) ∨ i = .crcFeedbuf) → exec i s = .next t →
    SameInput s t ∧ SameOutput s t ∧ SameMessage s t ∧ SameFlags s t ∧ SameSurroundings s t ∧
      t.scratch = s.scratch ∧ t.timeDraws = s.timeDraws

/-! ## The Message Codec (41_codec) -/

/-- MSG_ENCODE completes for every commandId and every payload of at most 255 bytes that IN_BUF[0..IN_LEN) holds: the MSG
group takes the fields and the CRC over commandId, length, payload; MSGP 1, CHECKED 0, VALID 0, ERR OK; MSG_PAYLOAD bytes
from index n on keep their values (41_codec R120). -/
def Obligations.MsgEncodeResult : Prop :=
  ∀ (s : State) (c : Byte) (p : List Byte), p.length ≤ 255 → InputIs s p →
    ∃ t, exec (.msgEncode c) s = .next t ∧
      MessageIs t c p (crcOf 0xFFFF#16 ([c, BitVec.ofNat 8 p.length] ++ p)) ∧
      t.scratch = t.msgCrc ∧ t.msgp = true ∧ t.checked = false ∧ t.valid = false ∧ t.err = 0#3 ∧
      (∀ a, p.length ≤ a → t.msgPayload.read a = s.msgPayload.read a)

/-- After a successful MSG_ENCODE the held message satisfies the invariant by construction, all four fields are populated,
and MSG_LEN == IN_LEN (41_codec R122). -/
def Obligations.EncodedMessageIsConsistent : Prop :=
  ∀ (s t : State) (c : Byte), exec (.msgEncode c) s = .next t → t.err = 0#3 →
    ∃ p, InputIs t p ∧ MessageIs t c p (crcOf 0xFFFF#16 ([t.msgCmd, t.msgLen] ++ p)) ∧
      t.msgLen.toNat = t.inLen.toNat

/-- MSG_ENCODE with IN_LEN > 255 raises PAYLOAD_TOO_LARGE and changes STATUS.ERR only, whatever IN_BUF holds or does not
hold: no byte of it is read (41_codec R121). -/
def Obligations.EncodeRejectsLongPayload : Prop :=
  ∀ (s : State) (c : Byte), 255 < s.inLen.toNat → exec (.msgEncode c) s = .next { s with err := 1#3 }

/-- MSG_SERIALIZE completes whenever a message is held: OUT_BUF takes commandId, length, payload and the held CRC low byte
first, OUT_LEN is 4 + n, ERR is OK, and OUT_BUF bytes from 4 + n on keep their values (41_codec R123). -/
def Obligations.MsgSerializeResult : Prop :=
  ∀ (s : State) (c : Byte) (p : List Byte) (k : Word16), s.msgp = true → MessageIs s c p k →
    ∃ t, exec .msgSerialize s = .next t ∧
      OutputIs t ([c, s.msgLen] ++ p ++ [k.extractLsb' 0 8, k.extractLsb' 8 8]) ∧
      t.outLen.toNat = 4 + p.length ∧ t.err = 0#3 ∧
      (∀ a, 4 + p.length ≤ a → t.outBuf.read a = s.outBuf.read a)

/-- MSG_SERIALIZE writes the CRC as held, right or wrong, keeps MSG, MSGP, CHECKED and VALID, and repeated writes the same
bytes (41_codec R125). -/
def Obligations.SerializeKeepsTheHeldCrc : Prop :=
  ∀ s t : State, s.msgp = true → exec .msgSerialize s = .next t →
    t.outBuf.read (2 + s.msgLen.toNat) = some (s.msgCrc.extractLsb' 0 8) ∧
    t.outBuf.read (3 + s.msgLen.toNat) = some (s.msgCrc.extractLsb' 8 8) ∧
    SameMessage s t ∧ SameFlags s t ∧
    ∃ u, exec .msgSerialize t = .next u ∧ SameOutput t u

/-- MSG_SERIALIZE and MSG_VALIDATE with MSGP = 0 raise NO_MESSAGE and change STATUS.ERR only (41_codec R124). -/
def Obligations.NoMessageErrorChangesErrOnly : Prop :=
  ∀ s : State, s.msgp = false →
    exec .msgSerialize s = .next { s with err := 3#3 } ∧ exec .msgValidate s = .next { s with err := 3#3 }

/-- MSG_PARSE completes whenever IN_BUF begins with a frame that fits in IN_LEN, whatever the frame's CRC and whatever the
bytes after the frame hold or do not hold: the MSG group takes the frame's fields verbatim; MSGP 1, CHECKED 0, VALID 0, ERR
OK; MSG_PAYLOAD bytes from index L on keep their values (41_codec R126, R128). -/
def Obligations.MsgParseResult : Prop :=
  ∀ (s : State) (c len lo hi : Byte) (p : List Byte), p.length = len.toNat →
    s.inBuf.Holds 0 ([c, len] ++ p ++ [lo, hi]) → 4 + len.toNat ≤ s.inLen.toNat →
      ∃ t, exec .msgParse s = .next t ∧ MessageIs t c p (hi ++ lo) ∧ t.msgLen = len ∧
        t.msgp = true ∧ t.checked = false ∧ t.valid = false ∧ t.err = 0#3 ∧
        (∀ a, len.toNat ≤ a → t.msgPayload.read a = s.msgPayload.read a)

/-- MSG_PARSE raises TRUNCATED_MESSAGE and changes STATUS.ERR only: with IN_LEN < 4, shorter than 4 + length for every
length, whatever IN_BUF holds or does not hold; and with IN_LEN < 4 + IN_BUF[1] whatever IN_BUF holds or does not hold beside
that length byte, at index IN_LEN and above too (41_codec R127; 60_exceptions R162, R165; that no unwritten header byte faults
first is the model's reading, log entry 7). -/
def Obligations.ParseRejectsTruncatedInput : Prop :=
  ∀ s : State,
    (s.inLen.toNat < 4 → exec .msgParse s = .next { s with err := 2#3 }) ∧
    (∀ len : Byte, s.inBuf.read 1 = some len → s.inLen.toNat < 4 + len.toNat →
      exec .msgParse s = .next { s with err := 2#3 })

/-- MSG_VALIDATE completes whenever a message is held: VALID says whether the CRC recomputed over commandId, length and
payload equals MSG_CRC, CHECKED is 1, ERR is OK also on a mismatch, and nothing else but SCRATCH changes (41_codec R129,
R131). -/
def Obligations.MsgValidateResult : Prop :=
  ∀ (s : State) (c : Byte) (p : List Byte) (k : Word16), s.msgp = true → MessageIs s c p k →
    exec .msgValidate s = .next { s with
      scratch := crcOf 0xFFFF#16 ([c, s.msgLen] ++ p)
      valid := decide (crcOf 0xFFFF#16 ([c, s.msgLen] ++ p) = k)
      checked := true
      err := 0#3 }

/-- MSG_SERIALIZE and MSG_VALIDATE complete without error in every state in which a message is held; and CRC_INIT,
MSG_ENCODE, MSG_SERIALIZE, MSG_PARSE and MSG_VALIDATE, repeated with the same inputs, give the same state (20_memory R57). -/
def Obligations.RepeatedCommandsGiveTheSameState : Prop :=
  (∀ s : State, s.msgp = true →
    (∃ t, exec .msgSerialize s = .next t ∧ t.err = 0#3) ∧
    (∃ t, exec .msgValidate s = .next t ∧ t.err = 0#3 ∧ t.checked = true)) ∧
  (∀ (i : Instr) (s t : State),
    (i = .crcInit ∨ (∃ c, i = .msgEncode c) ∨ i = .msgSerialize ∨ i = .msgParse ∨ i = .msgValidate) →
    exec i s = .next t →
      ∃ u, exec i t = .next u ∧ u.acc = t.acc ∧ u.err = t.err ∧ SameFlags t u ∧ SameMessage t u ∧ SameOutput t u ∧
        SameInput t u ∧ SameSurroundings t u ∧ u.scratch = t.scratch ∧ u.timeDraws = t.timeDraws)

/-- A message just built by MSG_ENCODE without error, or by PING_BUILD, validates: VALID = 1, CHECKED = 1, ERR = OK
(10_state R32; 41_codec R129). -/
def Obligations.BuiltMessagesValidate : Prop :=
  ∀ (i : Instr) (s t : State), ((∃ c, i = .msgEncode c) ∨ i = .pingBuild) → exec i s = .next t → t.err = 0#3 →
    ∃ u, exec .msgValidate t = .next u ∧ u.valid = true ∧ u.checked = true ∧ u.err = 0#3

/-- Round trip: from any state, `load.in p`, `msg.encode c`, `msg.ser`, `copy.out`, `msg.parse`, `msg.valid` ends with the
message (c, p), the CRC that MSG_ENCODE computed, VALID = 1 and ERR = OK, for every commandId and every payload of at most
255 bytes (41_codec R132). -/
def Obligations.RoundTripKeepsTheMessage : Prop :=
  ∀ (s : State) (c : Byte) (p : List Byte), p.length ≤ 255 →
    ∃ t1 t2 t, runHostOps (loadInOps p ++ [commandOp (.msgEncode c)]) s = .next t1 ∧
      andThen (runHostOps [commandOp .msgSerialize] t1) copyOut = .next t2 ∧
      runHostOps [commandOp .msgParse, commandOp .msgValidate] t2 = .next t ∧
      MessageIs t c p t1.msgCrc ∧ t.msgLen.toNat = p.length ∧ t.msgp = true ∧ t.checked = true ∧
      t.valid = true ∧ t.err = 0#3

/-- Corruption detection: take a valid frame and change one byte of its commandId or payload, leaving length and CRC; where
IN_BUF begins with the changed frame it parses, and MSG_VALIDATE gives VALID = 0 with CHECKED = 1 and ERR = OK (41_codec
R133). -/
def Obligations.SingleByteCorruptionIsDetected : Prop :=
  ∀ (s : State) (c c' len x : Byte) (p p' : List Byte) (j : Nat), p.length = len.toNat →
    j < (c :: p).length → (c :: p)[j]? ≠ some x → c' :: p' = (c :: p).set j x →
    s.inBuf.Holds 0 ([c', len] ++ p' ++ le16 (crcOf 0xFFFF#16 ([c, len] ++ p))) → 4 + len.toNat ≤ s.inLen.toNat →
      ∃ t u, exec .msgParse s = .next t ∧ t.err = 0#3 ∧ exec .msgValidate t = .next u ∧
        u.valid = false ∧ u.checked = true ∧ u.err = 0#3

/-- A change of the length byte can go undetected: some valid frame, with its length byte alone changed, parses without
error to a message of the changed length, and that message validates with VALID = 1 (90_conflicts C2; 95_test_vectors
V-C4). -/
def Obligations.LengthByteChangeCanStillValidate : Prop :=
  ∃ (s t u : State) (c len len' : Byte) (p p' : List Byte) (k' : Word16), p.length = len.toNat ∧ len' ≠ len ∧
    InputIs s ([c, len'] ++ p ++ le16 (crcOf 0xFFFF#16 ([c, len] ++ p))) ∧
    exec .msgParse s = .next t ∧ t.err = 0#3 ∧ MessageIs t c p' k' ∧ t.msgLen = len' ∧
    exec .msgValidate t = .next u ∧ u.err = 0#3 ∧ u.checked = true ∧ u.valid = true

/-- The frame of MSG_ENCODE: outside the MSG group, MSGP, CHECKED, VALID, ERR and SCRATCH nothing changes; MSG_PAYLOAD
changes at most at the indices below IN_LEN; with IN_LEN > 255 nothing but ERR changes (41_codec R120, R121). -/
def Obligations.MsgEncodeFrame : Prop :=
  ∀ (s t : State) (c : Byte), exec (.msgEncode c) s = .next t →
    t.acc = s.acc ∧ SameInput s t ∧ SameOutput s t ∧ SameSurroundings s t ∧ t.timeDraws = s.timeDraws ∧
    (s.inLen.toNat ≤ 255 → ∀ a, s.inLen.toNat ≤ a → t.msgPayload.read a = s.msgPayload.read a) ∧
    (255 < s.inLen.toNat → SameMessage s t ∧ SameFlags s t ∧ t.scratch = s.scratch)

/-- The frame of MSG_SERIALIZE: it changes ERR, OUT_LEN and, at most, the OUT_BUF bytes below 4 + MSG_LEN; with MSGP = 0 no
byte of OUT_BUF and not OUT_LEN (41_codec R123, R124). -/
def Obligations.MsgSerializeFrame : Prop :=
  ∀ s t : State, exec .msgSerialize s = .next t →
    t.acc = s.acc ∧ SameInput s t ∧ SameMessage s t ∧ SameFlags s t ∧ SameSurroundings s t ∧
    t.scratch = s.scratch ∧ t.timeDraws = s.timeDraws ∧
    (∀ a, 4 + s.msgLen.toNat ≤ a → t.outBuf.read a = s.outBuf.read a) ∧
    (s.msgp = false → SameOutput s t)

/-- The frame of MSG_PARSE: outside the MSG group, MSGP, CHECKED, VALID and ERR nothing changes; MSG_PAYLOAD changes at most
at the indices below the length byte IN_BUF[1]; on TRUNCATED_MESSAGE nothing but ERR changes (41_codec R126, R127). -/
def Obligations.MsgParseFrame : Prop :=
  ∀ s t : State, exec .msgParse s = .next t →
    t.acc = s.acc ∧ SameInput s t ∧ SameOutput s t ∧ SameSurroundings s t ∧
    t.scratch = s.scratch ∧ t.timeDraws = s.timeDraws ∧
    (∀ len, s.inBuf.read 1 = some len → ∀ a, len.toNat ≤ a → t.msgPayload.read a = s.msgPayload.read a) ∧
    (t.err ≠ 0#3 → SameMessage s t ∧ SameFlags s t)

/-- The frame of MSG_VALIDATE: it changes ERR, CHECKED, VALID and SCRATCH only, and with MSGP = 0 only ERR (41_codec R129,
R130). -/
def Obligations.MsgValidateFrame : Prop :=
  ∀ s t : State, exec .msgValidate s = .next t →
    t.acc = s.acc ∧ SameInput s t ∧ SameOutput s t ∧ SameMessage s t ∧ SameSurroundings s t ∧
    t.msgp = s.msgp ∧ t.timeDraws = s.timeDraws ∧
    (s.msgp = false → SameFlags s t ∧ t.scratch = s.scratch)

/-! ## The Ping frame builder (42_ping) -/

/-- PING_BUILD completes in every state, for the time value T the time source supplies: the MSG group takes commandId 0xFE,
length 10, payload LE64(T) ++ [VER_MAJ, VER_MIN] and its CRC; OUT_BUF takes the 14-byte frame; MSGP 1, CHECKED 0, VALID 0,
ERR OK. T is a free value (log entry 4), so the statement holds for every T (42_ping R150, R151). -/
def Obligations.PingBuildResult : Prop :=
  ∀ s : State, ∃ t, exec .pingBuild s = .next t ∧
    let T := Config.timeSource s.timeDraws
    let p := le64 T ++ [s.verMaj, s.verMin]
    let k := crcOf 0xFFFF#16 ([0xFE#8, 0x0A#8] ++ p)
    MessageIs t 0xFE#8 p k ∧ t.msgLen = 10#8 ∧ t.scratch = k ∧
    OutputIs t ([0xFE#8, 0x0A#8] ++ p ++ [k.extractLsb' 0 8, k.extractLsb' 8 8]) ∧ t.outLen = 14#16 ∧
    t.msgp = true ∧ t.checked = false ∧ t.valid = false ∧ t.err = 0#3

/-- PING_BUILD is MSG_ENCODE with commandId 0xFE and the ping payload, followed by MSG_SERIALIZE, except that the payload does
not pass through IN_BUF (42_ping R151). The one further difference, that a time value is drawn, is the model's own counter
(log entry 4). -/
def Obligations.PingIsEncodeThenSerialize : Prop :=
  ∀ (s : State) (n : Word16) (m : Memory),
    InputIs { s with inLen := n, inBuf := m } (le64 (Config.timeSource s.timeDraws) ++ [s.verMaj, s.verMin]) →
      ∃ t1 t2, exec (.msgEncode 0xFE#8) { s with inLen := n, inBuf := m } = .next t1 ∧
        exec .msgSerialize t1 = .next t2 ∧
        exec .pingBuild s =
          .next { t2 with inLen := s.inLen, inBuf := s.inBuf, timeDraws := s.timeDraws + 1 }

/-- The frame of PING_BUILD: ACC, IN_LEN, every byte of IN_BUF and what no command touches are unchanged; MSG_PAYLOAD changes
at most below index 10 and OUT_BUF at most below index 14 (42_ping R151). The count of drawn time values goes up by one (the
model's own field, log entry 4). -/
def Obligations.PingBuildFrame : Prop :=
  ∀ s t : State, exec .pingBuild s = .next t →
    t.acc = s.acc ∧ SameInput s t ∧ SameSurroundings s t ∧ t.timeDraws = s.timeDraws + 1 ∧
    (∀ a, 10 ≤ a → t.msgPayload.read a = s.msgPayload.read a) ∧
    (∀ a, 14 ≤ a → t.outBuf.read a = s.outBuf.read a)

/-! ## Errors and the model-level fault (60_exceptions) -/

/-- Errors are precise: a command that raises an error changes STATUS.ERR and nothing else (60_exceptions R162). -/
def Obligations.ErrorsChangeErrOnly : Prop :=
  ∀ (i : Instr) (s t : State), exec i s = .next t → t.err ≠ 0#3 → t = { s with err := t.err }

/-- Which error each command raises, and when; every other completion writes OK, whatever ERR held before (60_exceptions
R161, R163). MSG_PARSE with IN_LEN < 4 raises its error for every length byte (41_codec R127), also an unwritten one (the
model's reading, log entry 7). -/
def Obligations.EachCommandRaisesItsErrorExactlyWhenDue : Prop :=
  ∀ (i : Instr) (s t : State), exec i s = .next t →
    match i with
    | .crcInit => t.err = 0#3
    | .crcFeed _ => t.err = 0#3
    | .crcFeedbuf => t.err = 0#3
    | .msgEncode _ => t.err = if 255 < s.inLen.toNat then 1#3 else 0#3
    | .msgSerialize => t.err = if s.msgp then 0#3 else 3#3
    | .msgParse =>
      (t.err = 2#3 ∧ (s.inLen.toNat < 4 ∨ ∃ len, s.inBuf.read 1 = some len ∧ s.inLen.toNat < 4 + len.toNat)) ∨
      (t.err = 0#3 ∧ ∃ len, s.inBuf.read 1 = some len ∧ 4 + len.toNat ≤ s.inLen.toNat)
    | .msgValidate => t.err = if s.msgp then 0#3 else 3#3
    | .pingBuild => t.err = 0#3

/-- UNWRITTEN_INPUT: CRC_FEEDBUF, MSG_ENCODE past its check, and MSG_PARSE past its checks stop at the first IN_BUF byte
they read that holds no value; so does MSG_PARSE with IN_LEN at least 4 where its length byte holds none, at index 0 if
IN_BUF[0] holds none either (40_crc R105; 41_codec R120, R126; 60_exceptions R165, R166; the order in MSG_PARSE is the model's
reading, log entry 7). -/
def Obligations.UnwrittenInputFaults : Prop :=
  ∀ (s : State) (k : Nat), s.inBuf.read k = none → (∀ j, j < k → s.inBuf.read j ≠ none) → k < s.inLen.toNat →
    exec .crcFeedbuf s = .fault (.unwrittenInput k) ∧
    (∀ c, s.inLen.toNat ≤ 255 → exec (.msgEncode c) s = .fault (.unwrittenInput k)) ∧
    (k < 2 → 4 ≤ s.inLen.toNat → s.inBuf.read 1 = none → exec .msgParse s = .fault (.unwrittenInput k)) ∧
    (∀ len, s.inBuf.read 1 = some len → k < 4 + len.toNat → 4 + len.toNat ≤ s.inLen.toNat →
      exec .msgParse s = .fault (.unwrittenInput k))

/-- No command faults for any other reason or is refused: a fault is UNWRITTEN_INPUT at an index below IN_LEN that holds no
value, raised by CRC_FEEDBUF, MSG_ENCODE or MSG_PARSE (60_exceptions R166; 20_memory R58). -/
def Obligations.OnlyUnwrittenInputStopsACommand : Prop :=
  ∀ (i : Instr) (s : State),
    (∀ r, exec i s ≠ .refused r) ∧
    (∀ f, exec i s = .fault f → (i = .crcFeedbuf ∨ (∃ c, i = .msgEncode c) ∨ i = .msgParse) ∧
      ∃ k, f = .unwrittenInput k ∧ k < s.inLen.toNat ∧ s.inBuf.read k = none)

/-- No host operation faults but a write to CMD, and none is refused: every operation is allowed at all times (60_exceptions
R169; 20_memory R63). -/
def Obligations.HostOperationsCompleteAtAllTimes : Prop :=
  ∀ s : State, (∀ r, step s ≠ .refused r) ∧
    (∀ f, step s = .fault f → ∃ w rest, s.hostOps = .regWrite 0x02#8 w :: rest)

/-! ## Who writes what (10_state) -/

/-- The MSG group is written by MSG_ENCODE, MSG_PARSE and PING_BUILD only, when they raise no error, and by Reset; the host
cannot write it (10_state R27). -/
def Obligations.MessageIsWrittenByItsCommandsOnly : Prop :=
  ∀ s t : State, step s = .next t → ¬ SameMessage s t ∨ t.msgp ≠ s.msgp →
    (∃ rest, s.hostOps = .reset :: rest) ∨
    ∃ w rest i, s.hostOps = .regWrite 0x02#8 w :: rest ∧ decodeWord w = .ok i ∧
      ((∃ c, i = .msgEncode c) ∨ i = .msgParse ∨ i = .pingBuild) ∧ t.err = 0#3 ∧ t.msgp = true

/-- OUT_BUF and OUT_LEN are written by MSG_SERIALIZE and PING_BUILD only, and by Reset (10_state R36, R37). -/
def Obligations.OutputIsWrittenByItsCommandsOnly : Prop :=
  ∀ s t : State, step s = .next t → ¬ SameOutput s t →
    (∃ rest, s.hostOps = .reset :: rest) ∨
    ∃ w rest i, s.hostOps = .regWrite 0x02#8 w :: rest ∧ decodeWord w = .ok i ∧
      (i = .msgSerialize ∨ i = .pingBuild) ∧ t.err = 0#3

/-- No command writes IN_LEN, IN_BUF, VER_MAJ, VER_MIN or CMD (10_state R34, R35, R38, R26). -/
def Obligations.NoCommandWritesItsInput : Prop :=
  ∀ (i : Instr) (s t : State), exec i s = .next t → SameInput s t ∧ SameSurroundings s t

/-- SCRATCH is not observable: two states that differ in SCRATCH alone step to outcomes that differ in SCRATCH alone
(10_state R33). -/
def Obligations.ScratchIsNotObservable : Prop :=
  ∀ (s : State) (x : Word16), DifferInScratch (step s) (step { s with scratch := x })

/-- While MSGP = 0 no command uses MSG_CMD, MSG_LEN, MSG_CRC or MSG_PAYLOAD: two states that differ in them alone give the
same ACC, STATUS, SCRATCH and output, and if one completes so does the other (10_state R27). -/
def Obligations.MessageFieldsUnusedWithoutMessage : Prop :=
  ∀ (i : Instr) (s t : State) (c n : Byte) (k : Word16) (m : Memory), s.msgp = false → exec i s = .next t →
    ∃ u, exec i { s with msgCmd := c, msgLen := n, msgCrc := k, msgPayload := m } = .next u ∧
      u.acc = t.acc ∧ u.err = t.err ∧ SameFlags t u ∧ SameOutput t u ∧ u.scratch = t.scratch

/-! ## Registers and buffers at the host's side (10_state, 20_memory) -/

/-- STATUS as the host reads it: ERR in [2:0], CHECKED in [3], VALID in [4], MSGP in [5], [7:6] read as 0 (10_state R24). -/
def Obligations.StatusWordLayout : Prop :=
  ∀ s : State, (statusWord s).extractLsb' 0 3 = s.err ∧ (statusWord s).getLsbD 3 = s.checked ∧
    (statusWord s).getLsbD 4 = s.valid ∧ (statusWord s).getLsbD 5 = s.msgp ∧ (statusWord s).extractLsb' 6 2 = 0#2

/-- RegRead(n) returns register n zero-extended to 16 bits, 0 for a reserved number, and changes nothing of the block
(10_state R20, R40, R41, R43). -/
def Obligations.RegReadReturnsTheRegister : Prop :=
  ∀ (s : State) (n : BitVec 8) (rest : List HostOp), s.hostOps = .regRead n :: rest →
    ∃ v, step s = .next { s with hostOps := rest, reply := .register v } ∧
      (n = 0x00#8 → v = s.acc) ∧ (n = 0x01#8 → v.toNat = (statusWord s).toNat) ∧ (n = 0x02#8 → v = s.cmd) ∧
      (n = 0x03#8 → v = s.inLen) ∧ (n = 0x04#8 → v = s.outLen) ∧ (n = 0x05#8 → v.toNat = s.msgCmd.toNat) ∧
      (n = 0x06#8 → v.toNat = s.msgLen.toNat) ∧ (n = 0x07#8 → v = s.msgCrc) ∧
      (n = 0x08#8 → v.toNat = s.verMaj.toNat) ∧ (n = 0x09#8 → v.toNat = s.verMin.toNat) ∧
      (0x0A ≤ n.toNat → v = 0x0000#16)

/-- A host write to a read-only register (ACC, STATUS, OUT_LEN, MSG_CMD, MSG_LEN, MSG_CRC) is ignored; a host write to a
reserved number (0x0A to 0xFF) is ignored and a read of one returns 0; none has a side effect (10_state R41, R42). -/
def Obligations.ReadOnlyAndReservedRegistersIgnoreWrites : Prop :=
  ∀ (s : State) (n : BitVec 8) (v : Word16) (rest : List HostOp),
    (n ∈ [0x00#8, 0x01#8, 0x04#8, 0x05#8, 0x06#8, 0x07#8] ∨ 0x0A ≤ n.toNat → s.hostOps = .regWrite n v :: rest →
      step s = .next { s with hostOps := rest, reply := .nothing }) ∧
    (0x0A ≤ n.toNat → s.hostOps = .regRead n :: rest →
      step s = .next { s with hostOps := rest, reply := .register 0x0000#16 })

/-- A host write to IN_LEN takes a value of at most IN_CAP and ignores a greater one; a write to VER_MAJ or VER_MIN takes the
low byte and drops the high bits (10_state R34, R38, R40). -/
def Obligations.WritableRegistersTakeTheirBits : Prop :=
  ∀ (s : State) (v : Word16) (rest : List HostOp),
    (s.hostOps = .regWrite 0x03#8 v :: rest →
      step s = .next { s with
        hostOps := rest
        reply := .nothing
        inLen := if v.toNat ≤ Config.inCap then v else s.inLen }) ∧
    (s.hostOps = .regWrite 0x08#8 v :: rest →
      step s = .next { s with hostOps := rest, reply := .nothing, verMaj := v.extractLsb' 0 8 }) ∧
    (s.hostOps = .regWrite 0x09#8 v :: rest →
      step s = .next { s with hostOps := rest, reply := .nothing, verMin := v.extractLsb' 0 8 })

/-- BufRead of a location the spec gives a value: an IN_BUF byte the host has written, an OUT_BUF byte below OUT_LEN, a
MSG_PAYLOAD byte below MSG_LEN with MSGP = 1, each returned as held, with nothing of the block changed (20_memory R61, R63). -/
def Obligations.BufReadReturnsTheByte : Prop :=
  ∀ (s : State) (b : Byte) (rest : List HostOp),
    (∀ i, s.hostOps = .bufRead (.inBuf i) :: rest → i.toNat < Config.inCap → s.inBuf.read i.toNat = some b →
      step s = .next { s with hostOps := rest, reply := .byte b }) ∧
    (∀ i, s.hostOps = .bufRead (.outBuf i) :: rest → i.toNat < 259 → i.toNat < s.outLen.toNat →
      s.outBuf.read i.toNat = some b → step s = .next { s with hostOps := rest, reply := .byte b }) ∧
    (∀ i, s.hostOps = .bufRead (.payload i) :: rest → i.toNat < 255 → s.msgp = true →
      i.toNat < s.msgLen.toNat → s.msgPayload.read i.toNat = some b →
      step s = .next { s with hostOps := rest, reply := .byte b })

/-- BufRead of a location below capacity whose byte the spec leaves unspecified returns a draw: OUT_BUF at or above OUT_LEN,
MSG_PAYLOAD at or above MSG_LEN or with MSGP = 0, an IN_BUF byte the host has not written (20_memory R59). The byte is a free
value, so the statement holds for every byte; the count of drawn bytes is the model's own field (log entry 4). -/
def Obligations.UnspecifiedBufReadIsADraw : Prop :=
  ∀ (s : State) (a : BufIndex) (rest : List HostOp), s.hostOps = .bufRead a :: rest →
    (match a with
      | .inBuf i => i.toNat < Config.inCap ∧ s.inBuf.read i.toNat = none
      | .outBuf i => i.toNat < 259 ∧ s.outLen.toNat ≤ i.toNat
      | .payload i => i.toNat < 255 ∧ (s.msgp = false ∨ s.msgLen.toNat ≤ i.toNat)) →
    step s = .next { s with
      hostOps := rest
      reply := .byte (Config.freeByte s.byteDraws)
      byteDraws := s.byteDraws + 1 }

/-- A host buffer access at or beyond the buffer's capacity reads 0 and has no effect, and a host write to OUT_BUF or
MSG_PAYLOAD at any index is ignored (20_memory R60). -/
def Obligations.AccessBeyondCapacityHasNoEffect : Prop :=
  ∀ (s : State) (a : BufIndex) (b : Byte) (rest : List HostOp),
    ((match a with
      | .inBuf i => Config.inCap ≤ i.toNat
      | .outBuf i => 259 ≤ i.toNat
      | .payload i => 255 ≤ i.toNat) →
      s.hostOps = .bufRead a :: rest → step s = .next { s with hostOps := rest, reply := .byte 0x00#8 }) ∧
    ((match a with
      | .inBuf i => Config.inCap ≤ i.toNat
      | .outBuf _ => True
      | .payload _ => True) →
      s.hostOps = .bufWrite a b :: rest → step s = .next { s with hostOps := rest, reply := .nothing })

/-- BufWrite(IN, i, b) below IN_CAP writes that byte alone, and the host's next operation, a BufRead of it, returns it
(20_memory R61, R63). -/
def Obligations.BufWriteThenReadReturnsTheByte : Prop :=
  ∀ (s : State) (i : BitVec 16) (b : Byte) (rest : List HostOp), i.toNat < Config.inCap →
    s.hostOps = .bufWrite (.inBuf i) b :: .bufRead (.inBuf i) :: rest →
      ∃ m t, step s =
          .next { s with hostOps := .bufRead (.inBuf i) :: rest, reply := .nothing, inBuf := m } ∧
        (∀ a, a ≠ i.toNat → Memory.read m a = s.inBuf.read a) ∧
        step { s with hostOps := .bufRead (.inBuf i) :: rest, reply := .nothing, inBuf := m } = .next t ∧
        t.reply = .byte b

/-- `crc.bytes` with a byte sequence computes the same ACC as `load.in` with that sequence followed by `crc.feedbuf`, for
every sequence that fits IN_BUF (30_encoding R78); that `crc.bytes` with no bytes stands for no operation is the model's
choice (log entry 8). -/
def Obligations.CrcBytesEqualsLoadThenFeedbuf : Prop :=
  ∀ (s : State) (p : List Byte), p.length ≤ Config.inCap →
    ∃ t u, runHostOps (crcBytesOps p) s = .next t ∧
      runHostOps (loadInOps p ++ [commandOp .crcFeedbuf]) s = .next u ∧ t.acc = u.acc

/-! ## Reset and invariants -/

/-- Reset() leaves every register at its reset value, STATUS at 0 and no byte of any buffer holding a value, whatever the
state before; the values hold at the model's reset state too. SCRATCH is not said: its reset value is the model's choice (log
entry 1). That the host's later operations stay pending is the model's convention (log entry 2) (70_reset R190). -/
def Obligations.ResetLeavesTheResetValues : Prop :=
  let isReset := fun t : State =>
    t.acc = 0xFFFF#16 ∧ statusWord t = 0x00#8 ∧ t.cmd = 0x0000#16 ∧ t.inLen = 0#16 ∧ t.outLen = 0#16 ∧
    t.msgCmd = 0#8 ∧ t.msgLen = 0#8 ∧ t.msgCrc = 0#16 ∧ t.verMaj = 1#8 ∧ t.verMin = 1#8 ∧
    ∀ a, t.inBuf.read a = none ∧ t.outBuf.read a = none ∧ t.msgPayload.read a = none
  isReset State.reset ∧
  ∀ (s : State) (rest : List HostOp), s.hostOps = .reset :: rest →
    ∃ t, step s = .next t ∧ isReset t ∧ t.hostOps = rest

/-- The reset state meets the model's invariant (10_state R44; 70_reset R190). -/
def Obligations.ResetMeetsTheInvariant : Prop := Inv State.reset

/-- After every command (a) to (e) of R44 hold if they held before it, and the reset state satisfies all five (10_state R44). -/
def Obligations.CommandsKeepTheFiveInvariants : Prop :=
  CommandInvariants State.reset ∧
  ∀ (i : Instr) (s t : State), CommandInvariants s → exec i s = .next t → CommandInvariants t

/-- Every step keeps the model's invariant: R44; the buffers canonical and within their capacities; the held payload and the
written frame hold values; ERR is one of its five codes (10_state R25, R31, R37, R44; 20_memory R51, R58). -/
def Obligations.EveryStepKeepsTheInvariant : Prop :=
  ∀ s t : State, Inv s → step s = .next t → Inv t
end

