-- ==== Sys2Proof/Laws/Crc.lean ====
section
/-! SUPPORT. The CRC fold as its two equations (40_crc R102). -/

namespace Sys2Proof.Machine

@[simp] theorem crcOf_nil (s : Word16) : crcOf s [] = s := rfl

@[simp] theorem crcOf_cons (s : Word16) (b : Byte) (p : List Byte) : crcOf s (b :: p) = crcOf (crcStep s b) p := rfl

end Sys2Proof.Machine
end

