-- ==== Sys2Proof/Laws/Memory.lean ====
section
/-! SUPPORT. The laws of the byte buffers: a read after a write, and that every write keeps the canonical form. -/

namespace Sys2Proof.Machine

@[simp] theorem Memory.read_nil (k : Nat) : Memory.read [] k = none := rfl

/-- A read at the written index gives the byte written, on every list (20_memory R61). -/
@[simp] theorem Memory.read_write_same (m : Memory) (k : Nat) (b : Byte) : (m.write k b).read k = some b := by
  induction m with
  | nil => simp [Memory.write, Memory.read]
  | cons c m ih =>
    obtain ⟨a, x⟩ := c
    simp only [Memory.write]
    split
    · simp [Memory.read]
    · split
      · simp [Memory.read]
      · simp [Memory.read, *]

/-- A write leaves every other index alone. -/
theorem Memory.read_write_other (m : Memory) {k j : Nat} (b : Byte) (h : j ≠ k) :
    (m.write k b).read j = m.read j := by
  induction m with
  | nil => simp [Memory.write, Memory.read, h]
  | cons c m ih =>
    obtain ⟨a, x⟩ := c
    simp only [Memory.write]
    split
    · simp [Memory.read, h]
    · split
      · subst_vars; simp [Memory.read, h]
      · simp [Memory.read, ih]

/-- What one index reads after a write. -/
theorem Memory.read_write (m : Memory) (k j : Nat) (b : Byte) :
    (m.write k b).read j = if j = k then some b else m.read j := by
  split
  · subst_vars; simp
  · exact m.read_write_other b ‹_›

/-- What one index reads after a sequence was written: the sequence's byte inside it, the old byte outside. -/
theorem Memory.read_writeSeq (p : List Byte) (m : Memory) (k j : Nat) :
    (m.writeSeq k p).read j = if k ≤ j ∧ j < k + p.length then p[j - k]? else m.read j := by
  induction p generalizing m k with
  | nil => simp [Memory.writeSeq]
  | cons b p ih =>
    rw [Memory.writeSeq, ih]
    by_cases hk : j = k
    · subst hk; simp
    · rw [Memory.read_write_other _ _ hk]
      by_cases hj : k ≤ j ∧ j < k + (p.length + 1)
      · have h1 : k + 1 ≤ j ∧ j < k + 1 + p.length := by omega
        have h2 : j - k = (j - (k + 1)) + 1 := by omega
        simp [h1, hj, h2]
      · have h1 : ¬ (k + 1 ≤ j ∧ j < k + 1 + p.length) := by omega
        simp only [List.length_cons]
        rw [if_neg h1, if_neg hj]

/-- Inside the written sequence. -/
theorem Memory.read_writeSeq_in (p : List Byte) (m : Memory) {j : Nat} (h : j < p.length) :
    (m.writeSeq 0 p).read j = p[j]? := by
  rw [Memory.read_writeSeq, if_pos (by omega)]; simp

/-- At and above the end of the written sequence. -/
theorem Memory.read_writeSeq_out (p : List Byte) (m : Memory) {j : Nat} (h : p.length ≤ j) :
    (m.writeSeq 0 p).read j = m.read j := by
  rw [Memory.read_writeSeq, if_neg (by omega)]

/-- A listed cell after a write is the one written or an old one. -/
theorem Memory.mem_write {m : Memory} {k : Nat} {b : Byte} {c : Host.Cell} (h : c ∈ m.write k b) :
    c = (k, b) ∨ c ∈ m := by
  induction m with
  | nil => simpa [Memory.write] using h
  | cons d m ih =>
    obtain ⟨a, x⟩ := d
    simp only [Memory.write] at h
    split at h
    · simpa using h
    · split at h
      · rcases List.mem_cons.1 h with h | h
        · exact .inl h
        · exact .inr (List.mem_cons_of_mem _ h)
      · rcases List.mem_cons.1 h with h | h
        · exact .inr (by simp [h])
        · exact (ih h).imp id (List.mem_cons_of_mem _)

/-- A write keeps the canonical form. -/
theorem Memory.wf_write {m : Memory} (k : Nat) (b : Byte) (h : m.wf) : (m.write k b).wf := by
  induction m with
  | nil => simp [Memory.write, Memory.wf]
  | cons d m ih =>
    obtain ⟨a, x⟩ := d
    have hd := List.pairwise_cons.1 h
    simp only [Memory.write]
    split
    · refine List.pairwise_cons.2 ⟨fun c hc => ?_, h⟩
      rcases List.mem_cons.1 hc with rfl | hc
      · assumption
      · exact Nat.lt_trans ‹_› (hd.1 c hc)
    · split
      · subst_vars; exact List.pairwise_cons.2 ⟨hd.1, hd.2⟩
      · refine List.pairwise_cons.2 ⟨fun c hc => ?_, ih hd.2⟩
        rcases Memory.mem_write hc with rfl | hc
        · show a < k; omega
        · exact hd.1 c hc

/-- A write below the capacity stays within it. -/
theorem Memory.within_write {m : Memory} {cap k : Nat} (b : Byte) (h : m.within cap) (hk : k < cap) :
    (m.write k b).within cap := by
  intro c hc
  rcases Memory.mem_write hc with rfl | hc
  · exact hk
  · exact h c hc

/-- Writing a sequence keeps the canonical form. -/
theorem Memory.wf_writeSeq (p : List Byte) {m : Memory} (k : Nat) (h : m.wf) : (m.writeSeq k p).wf := by
  induction p generalizing m k with
  | nil => exact h
  | cons b p ih => exact ih (k + 1) (Memory.wf_write k b h)

/-- Writing a sequence that ends within the capacity stays within it. -/
theorem Memory.within_writeSeq (p : List Byte) {m : Memory} {cap k : Nat} (h : m.within cap)
    (hk : k + p.length ≤ cap) : (m.writeSeq k p).within cap := by
  induction p generalizing m k with
  | nil => exact h
  | cons b p ih =>
    simp only [List.length_cons] at hk
    exact ih (Memory.within_write b h (by omega)) (by omega)

/-- The buffers are canonical after reset. -/
theorem State.reset_memories_wf : State.reset.msgPayload.wf ∧ State.reset.inBuf.wf ∧ State.reset.outBuf.wf := by
  decide

end Sys2Proof.Machine
end

