-- ==== Sys2Proof/Laws/Operands.lean ====
section
/-! SUPPORT. What the operand operations can do: reading the input sequence, reading the payload, the byte orders and the
frame layout. -/

namespace Sys2Proof

theorem Config.inCap_ge : 259 ≤ Config.inCap := by unfold Config.inCap; omega

theorem Config.inCap_le : Config.inCap ≤ 65535 := by
  unfold Config.inCap
  have := Config.inCapExtra.isLt
  omega

end Sys2Proof

namespace Sys2Proof.Machine

theorem Memory.holds_nil (m : Memory) (i : Nat) : m.Holds i [] := fun _ h => absurd h (Nat.not_lt_zero _)

theorem Memory.holds_cons {m : Memory} {i : Nat} {b : Byte} {p : List Byte} :
    m.Holds i (b :: p) ↔ m.read i = some b ∧ m.Holds (i + 1) p := by
  constructor
  · intro h
    refine ⟨by simpa using h 0 (by simp), fun j hj => ?_⟩
    have := h (j + 1) (by simpa using hj)
    rw [show i + 1 + j = i + (j + 1) by omega, this]; simp
  · rintro ⟨h0, h⟩ j hj
    cases j with
    | zero => simpa using h0
    | succ j =>
      have := h j (by simpa using hj)
      rw [show i + (j + 1) = i + 1 + j by omega, this]; simp

theorem Memory.holds_append {m : Memory} {i : Nat} {p q : List Byte} :
    m.Holds i (p ++ q) ↔ m.Holds i p ∧ m.Holds (i + p.length) q := by
  induction p generalizing i with
  | nil => simp [Memory.holds_nil]
  | cons b p ih =>
    rw [List.cons_append, Memory.holds_cons, Memory.holds_cons, ih, and_assoc,
      show i + 1 + p.length = i + (b :: p).length by simp; omega]

/-- A sequence just written is held. -/
theorem Memory.holds_writeSeq (m : Memory) (k : Nat) (p : List Byte) : (m.writeSeq k p).Holds k p := by
  intro j hj
  rw [Memory.read_writeSeq, if_pos (by omega)]
  congr 1; omega

/-- What a buffer holds depends on its bytes alone. -/
theorem Memory.holds_congr {m m' : Memory} {i : Nat} {p : List Byte} (h : m.Holds i p)
    (e : ∀ j, j < p.length → m'.read (i + j) = m.read (i + j)) : m'.Holds i p :=
  fun j hj => (e j hj).trans (h j hj)

/-- A buffer holds one sequence of a given length. -/
theorem Memory.holds_unique {m : Memory} {i : Nat} {p q : List Byte} (hp : m.Holds i p) (hq : m.Holds i q)
    (h : p.length = q.length) : p = q := by
  apply List.ext_getElem? ; intro j
  by_cases hj : j < p.length
  · rw [← hp j hj, hq j (by omega)]
  · rw [List.getElem?_eq_none (by omega), List.getElem?_eq_none (by omega)]

/-- Reading a sequence the buffer holds answers that sequence. -/
theorem readInput_of_holds {m : Memory} {i : Nat} {p : List Byte} (h : m.Holds i p) :
    readInput m i p.length = .ok p := by
  induction p generalizing i with
  | nil => rfl
  | cons b p ih =>
    obtain ⟨h0, h1⟩ := Memory.holds_cons.1 h
    simp [readInput, h0, ih h1]

/-- Reading answers only what the buffer holds. -/
theorem readInput_ok {m : Memory} {i n : Nat} {p : List Byte} (h : readInput m i n = .ok p) :
    p.length = n ∧ m.Holds i p := by
  induction n generalizing i p with
  | zero => cases h; exact ⟨rfl, m.holds_nil i⟩
  | succ n ih =>
    simp only [readInput] at h
    split at h
    · cases h
    · split at h
      · cases h
      · cases h
        obtain ⟨hl, hh⟩ := ih ‹_›
        exact ⟨by simp [hl], Memory.holds_cons.2 ⟨‹_›, hh⟩⟩

/-- Reading stops at the first byte that holds no value (60_exceptions R166). -/
theorem readInput_error {m : Memory} {i n : Nat} {f : Fault} (h : readInput m i n = .error f) :
    ∃ j, i ≤ j ∧ j < i + n ∧ f = .unwrittenInput j ∧ m.read j = none ∧
      ∀ k, i ≤ k → k < j → (m.read k).isSome := by
  induction n generalizing i with
  | zero => cases h
  | succ n ih =>
    simp only [readInput] at h
    split at h
    · cases h; exact ⟨i, by omega, by omega, rfl, ‹_›, fun k _ _ => by omega⟩
    · rename_i b hb
      split at h
      · cases h
        obtain ⟨j, h1, h2, h3, h4, h5⟩ := ih ‹_›
        refine ⟨j, by omega, by omega, h3, h4, fun k hk hkj => ?_⟩
        rcases Nat.eq_or_lt_of_le hk with rfl | hk
        · simp [hb]
        · exact h5 k hk hkj
      · cases h

/-- Reading depends on the bytes read alone. -/
theorem readInput_congr {m m' : Memory} {i n : Nat} (h : ∀ j, i ≤ j → j < i + n → m'.read j = m.read j) :
    readInput m' i n = readInput m i n := by
  induction n generalizing i with
  | zero => rfl
  | succ n ih =>
    simp only [readInput, h i (by omega) (by omega), ih (i := i + 1) fun j h1 h2 => h j (by omega) (by omega)]

/-- A command that consumes IN_BUF[0..IN_LEN) reads exactly p. -/
theorem InputIs.readInput {s : State} {p : List Byte} (h : InputIs s p) :
    readInput s.inBuf 0 s.inLen.toNat = .ok p := by
  rw [h.1]; exact readInput_of_holds h.2

/-- The sequence read is the input sequence. -/
theorem inputIs_of_readInput {s : State} {p : List Byte}
    (h : Sys2Proof.Machine.readInput s.inBuf 0 s.inLen.toNat = .ok p) : InputIs s p :=
  ⟨(readInput_ok h).1.symm, (readInput_ok h).2⟩

@[simp] theorem payloadBytes_length (s : State) : (payloadBytes s).length = s.msgLen.toNat := by
  simp [payloadBytes]

/-- The payload a command reads is the one MSG_PAYLOAD holds. -/
theorem payloadBytes_of_holds {s : State} {p : List Byte} (hl : s.msgLen.toNat = p.length)
    (h : s.msgPayload.Holds 0 p) : payloadBytes s = p := by
  apply List.ext_getElem?; intro j
  by_cases hj : j < p.length
  · have := h j hj
    simp only [Nat.zero_add] at this
    simp [payloadBytes, hl, hj, payloadByte, this]
  · rw [List.getElem?_eq_none (by simp [hl]; omega), List.getElem?_eq_none (by omega)]

/-- The payload depends on MSG_LEN and the bytes below it alone. -/
theorem payloadBytes_congr {s t : State} (hl : t.msgLen = s.msgLen)
    (h : ∀ a, a < s.msgLen.toNat → t.msgPayload.read a = s.msgPayload.read a) : payloadBytes t = payloadBytes s := by
  simp only [payloadBytes, hl]
  refine List.map_congr_left fun a ha => ?_
  simp [payloadByte, h a (List.mem_range.1 ha)]

@[simp] theorem le16_length (v : Word16) : (le16 v).length = 2 := rfl
@[simp] theorem le64_length (v : BitVec 64) : (le64 v).length = 8 := rfl
@[simp] theorem crcCovered_length (c n : Byte) (p : List Byte) : (crcCovered c n p).length = p.length + 2 := rfl
@[simp] theorem pingPayload_length (t : BitVec 64) (a b : Byte) : (pingPayload t a b).length = 10 := rfl

/-- A frame of an n-byte payload has 4 + n bytes (30_encoding R70). -/
@[simp] theorem frameBytes_length (c n : Byte) (p : List Byte) (k : Word16) :
    (frameBytes c n p k).length = p.length + 4 := by
  simp [frameBytes]

/-- Reading back the two bytes of LE16 gives the value (20_memory R52). -/
@[simp] theorem fromLe16_le16 (v : Word16) : fromLe16 (v.extractLsb' 0 8) (v.extractLsb' 8 8) = v := by
  unfold fromLe16
  apply BitVec.eq_of_getLsbD_eq
  intro i hi
  rw [BitVec.getLsbD_append]
  split
  · simp [*]
  · simp only [BitVec.getLsbD_extractLsb', show i - 8 < 8 by omega, decide_true, Bool.true_and]
    congr 1; omega

end Sys2Proof.Machine
end

