-- ==== Sys2Proof/Laws/State.lean ====
section
/-! SUPPORT. What each update of the state does to each field, so that no proof unfolds a record update. -/

namespace Sys2Proof.Machine

variable (s : State)

@[simp] theorem State.setErr_acc (e : BitVec 3) : (s.setErr e).acc = s.acc := rfl
@[simp] theorem State.setErr_err (e : BitVec 3) : (s.setErr e).err = e := rfl
@[simp] theorem State.setErr_checked (e : BitVec 3) : (s.setErr e).checked = s.checked := rfl
@[simp] theorem State.setErr_valid (e : BitVec 3) : (s.setErr e).valid = s.valid := rfl
@[simp] theorem State.setErr_msgp (e : BitVec 3) : (s.setErr e).msgp = s.msgp := rfl
@[simp] theorem State.setErr_cmd (e : BitVec 3) : (s.setErr e).cmd = s.cmd := rfl
@[simp] theorem State.setErr_inLen (e : BitVec 3) : (s.setErr e).inLen = s.inLen := rfl
@[simp] theorem State.setErr_outLen (e : BitVec 3) : (s.setErr e).outLen = s.outLen := rfl
@[simp] theorem State.setErr_msgCmd (e : BitVec 3) : (s.setErr e).msgCmd = s.msgCmd := rfl
@[simp] theorem State.setErr_msgLen (e : BitVec 3) : (s.setErr e).msgLen = s.msgLen := rfl
@[simp] theorem State.setErr_msgCrc (e : BitVec 3) : (s.setErr e).msgCrc = s.msgCrc := rfl
@[simp] theorem State.setErr_verMaj (e : BitVec 3) : (s.setErr e).verMaj = s.verMaj := rfl
@[simp] theorem State.setErr_verMin (e : BitVec 3) : (s.setErr e).verMin = s.verMin := rfl
@[simp] theorem State.setErr_scratch (e : BitVec 3) : (s.setErr e).scratch = s.scratch := rfl
@[simp] theorem State.setErr_msgPayload (e : BitVec 3) : (s.setErr e).msgPayload = s.msgPayload := rfl
@[simp] theorem State.setErr_inBuf (e : BitVec 3) : (s.setErr e).inBuf = s.inBuf := rfl
@[simp] theorem State.setErr_outBuf (e : BitVec 3) : (s.setErr e).outBuf = s.outBuf := rfl
@[simp] theorem State.setErr_hostOps (e : BitVec 3) : (s.setErr e).hostOps = s.hostOps := rfl
@[simp] theorem State.setErr_reply (e : BitVec 3) : (s.setErr e).reply = s.reply := rfl
@[simp] theorem State.setErr_byteDraws (e : BitVec 3) : (s.setErr e).byteDraws = s.byteDraws := rfl
@[simp] theorem State.setErr_timeDraws (e : BitVec 3) : (s.setErr e).timeDraws = s.timeDraws := rfl

@[simp] theorem State.messageReplaced_acc : s.messageReplaced.acc = s.acc := rfl
@[simp] theorem State.messageReplaced_err : s.messageReplaced.err = s.err := rfl
@[simp] theorem State.messageReplaced_checked : s.messageReplaced.checked = false := rfl
@[simp] theorem State.messageReplaced_valid : s.messageReplaced.valid = false := rfl
@[simp] theorem State.messageReplaced_msgp : s.messageReplaced.msgp = true := rfl
@[simp] theorem State.messageReplaced_cmd : s.messageReplaced.cmd = s.cmd := rfl
@[simp] theorem State.messageReplaced_inLen : s.messageReplaced.inLen = s.inLen := rfl
@[simp] theorem State.messageReplaced_outLen : s.messageReplaced.outLen = s.outLen := rfl
@[simp] theorem State.messageReplaced_msgCmd : s.messageReplaced.msgCmd = s.msgCmd := rfl
@[simp] theorem State.messageReplaced_msgLen : s.messageReplaced.msgLen = s.msgLen := rfl
@[simp] theorem State.messageReplaced_msgCrc : s.messageReplaced.msgCrc = s.msgCrc := rfl
@[simp] theorem State.messageReplaced_verMaj : s.messageReplaced.verMaj = s.verMaj := rfl
@[simp] theorem State.messageReplaced_verMin : s.messageReplaced.verMin = s.verMin := rfl
@[simp] theorem State.messageReplaced_scratch : s.messageReplaced.scratch = s.scratch := rfl
@[simp] theorem State.messageReplaced_msgPayload : s.messageReplaced.msgPayload = s.msgPayload := rfl
@[simp] theorem State.messageReplaced_inBuf : s.messageReplaced.inBuf = s.inBuf := rfl
@[simp] theorem State.messageReplaced_outBuf : s.messageReplaced.outBuf = s.outBuf := rfl
@[simp] theorem State.messageReplaced_hostOps : s.messageReplaced.hostOps = s.hostOps := rfl
@[simp] theorem State.messageReplaced_reply : s.messageReplaced.reply = s.reply := rfl
@[simp] theorem State.messageReplaced_byteDraws : s.messageReplaced.byteDraws = s.byteDraws := rfl
@[simp] theorem State.messageReplaced_timeDraws : s.messageReplaced.timeDraws = s.timeDraws := rfl

@[simp] theorem State.messageChecked_acc (v : Bool) : (s.messageChecked v).acc = s.acc := rfl
@[simp] theorem State.messageChecked_err (v : Bool) : (s.messageChecked v).err = s.err := rfl
@[simp] theorem State.messageChecked_checked (v : Bool) : (s.messageChecked v).checked = true := rfl
@[simp] theorem State.messageChecked_valid (v : Bool) : (s.messageChecked v).valid = v := rfl
@[simp] theorem State.messageChecked_msgp (v : Bool) : (s.messageChecked v).msgp = s.msgp := rfl
@[simp] theorem State.messageChecked_cmd (v : Bool) : (s.messageChecked v).cmd = s.cmd := rfl
@[simp] theorem State.messageChecked_inLen (v : Bool) : (s.messageChecked v).inLen = s.inLen := rfl
@[simp] theorem State.messageChecked_outLen (v : Bool) : (s.messageChecked v).outLen = s.outLen := rfl
@[simp] theorem State.messageChecked_msgCmd (v : Bool) : (s.messageChecked v).msgCmd = s.msgCmd := rfl
@[simp] theorem State.messageChecked_msgLen (v : Bool) : (s.messageChecked v).msgLen = s.msgLen := rfl
@[simp] theorem State.messageChecked_msgCrc (v : Bool) : (s.messageChecked v).msgCrc = s.msgCrc := rfl
@[simp] theorem State.messageChecked_verMaj (v : Bool) : (s.messageChecked v).verMaj = s.verMaj := rfl
@[simp] theorem State.messageChecked_verMin (v : Bool) : (s.messageChecked v).verMin = s.verMin := rfl
@[simp] theorem State.messageChecked_scratch (v : Bool) : (s.messageChecked v).scratch = s.scratch := rfl
@[simp] theorem State.messageChecked_msgPayload (v : Bool) : (s.messageChecked v).msgPayload = s.msgPayload := rfl
@[simp] theorem State.messageChecked_inBuf (v : Bool) : (s.messageChecked v).inBuf = s.inBuf := rfl
@[simp] theorem State.messageChecked_outBuf (v : Bool) : (s.messageChecked v).outBuf = s.outBuf := rfl
@[simp] theorem State.messageChecked_hostOps (v : Bool) : (s.messageChecked v).hostOps = s.hostOps := rfl
@[simp] theorem State.messageChecked_reply (v : Bool) : (s.messageChecked v).reply = s.reply := rfl
@[simp] theorem State.messageChecked_byteDraws (v : Bool) : (s.messageChecked v).byteDraws = s.byteDraws := rfl
@[simp] theorem State.messageChecked_timeDraws (v : Bool) : (s.messageChecked v).timeDraws = s.timeDraws := rfl

@[simp] theorem State.setAcc_acc (v : Word16) : (s.setAcc v).acc = v := rfl
@[simp] theorem State.setAcc_err (v : Word16) : (s.setAcc v).err = s.err := rfl
@[simp] theorem State.setAcc_checked (v : Word16) : (s.setAcc v).checked = s.checked := rfl
@[simp] theorem State.setAcc_valid (v : Word16) : (s.setAcc v).valid = s.valid := rfl
@[simp] theorem State.setAcc_msgp (v : Word16) : (s.setAcc v).msgp = s.msgp := rfl
@[simp] theorem State.setAcc_cmd (v : Word16) : (s.setAcc v).cmd = s.cmd := rfl
@[simp] theorem State.setAcc_inLen (v : Word16) : (s.setAcc v).inLen = s.inLen := rfl
@[simp] theorem State.setAcc_outLen (v : Word16) : (s.setAcc v).outLen = s.outLen := rfl
@[simp] theorem State.setAcc_msgCmd (v : Word16) : (s.setAcc v).msgCmd = s.msgCmd := rfl
@[simp] theorem State.setAcc_msgLen (v : Word16) : (s.setAcc v).msgLen = s.msgLen := rfl
@[simp] theorem State.setAcc_msgCrc (v : Word16) : (s.setAcc v).msgCrc = s.msgCrc := rfl
@[simp] theorem State.setAcc_verMaj (v : Word16) : (s.setAcc v).verMaj = s.verMaj := rfl
@[simp] theorem State.setAcc_verMin (v : Word16) : (s.setAcc v).verMin = s.verMin := rfl
@[simp] theorem State.setAcc_scratch (v : Word16) : (s.setAcc v).scratch = s.scratch := rfl
@[simp] theorem State.setAcc_msgPayload (v : Word16) : (s.setAcc v).msgPayload = s.msgPayload := rfl
@[simp] theorem State.setAcc_inBuf (v : Word16) : (s.setAcc v).inBuf = s.inBuf := rfl
@[simp] theorem State.setAcc_outBuf (v : Word16) : (s.setAcc v).outBuf = s.outBuf := rfl
@[simp] theorem State.setAcc_hostOps (v : Word16) : (s.setAcc v).hostOps = s.hostOps := rfl
@[simp] theorem State.setAcc_reply (v : Word16) : (s.setAcc v).reply = s.reply := rfl
@[simp] theorem State.setAcc_byteDraws (v : Word16) : (s.setAcc v).byteDraws = s.byteDraws := rfl
@[simp] theorem State.setAcc_timeDraws (v : Word16) : (s.setAcc v).timeDraws = s.timeDraws := rfl

@[simp] theorem State.setScratch_acc (v : Word16) : (s.setScratch v).acc = s.acc := rfl
@[simp] theorem State.setScratch_err (v : Word16) : (s.setScratch v).err = s.err := rfl
@[simp] theorem State.setScratch_checked (v : Word16) : (s.setScratch v).checked = s.checked := rfl
@[simp] theorem State.setScratch_valid (v : Word16) : (s.setScratch v).valid = s.valid := rfl
@[simp] theorem State.setScratch_msgp (v : Word16) : (s.setScratch v).msgp = s.msgp := rfl
@[simp] theorem State.setScratch_cmd (v : Word16) : (s.setScratch v).cmd = s.cmd := rfl
@[simp] theorem State.setScratch_inLen (v : Word16) : (s.setScratch v).inLen = s.inLen := rfl
@[simp] theorem State.setScratch_outLen (v : Word16) : (s.setScratch v).outLen = s.outLen := rfl
@[simp] theorem State.setScratch_msgCmd (v : Word16) : (s.setScratch v).msgCmd = s.msgCmd := rfl
@[simp] theorem State.setScratch_msgLen (v : Word16) : (s.setScratch v).msgLen = s.msgLen := rfl
@[simp] theorem State.setScratch_msgCrc (v : Word16) : (s.setScratch v).msgCrc = s.msgCrc := rfl
@[simp] theorem State.setScratch_verMaj (v : Word16) : (s.setScratch v).verMaj = s.verMaj := rfl
@[simp] theorem State.setScratch_verMin (v : Word16) : (s.setScratch v).verMin = s.verMin := rfl
@[simp] theorem State.setScratch_scratch (v : Word16) : (s.setScratch v).scratch = v := rfl
@[simp] theorem State.setScratch_msgPayload (v : Word16) : (s.setScratch v).msgPayload = s.msgPayload := rfl
@[simp] theorem State.setScratch_inBuf (v : Word16) : (s.setScratch v).inBuf = s.inBuf := rfl
@[simp] theorem State.setScratch_outBuf (v : Word16) : (s.setScratch v).outBuf = s.outBuf := rfl
@[simp] theorem State.setScratch_hostOps (v : Word16) : (s.setScratch v).hostOps = s.hostOps := rfl
@[simp] theorem State.setScratch_reply (v : Word16) : (s.setScratch v).reply = s.reply := rfl
@[simp] theorem State.setScratch_byteDraws (v : Word16) : (s.setScratch v).byteDraws = s.byteDraws := rfl
@[simp] theorem State.setScratch_timeDraws (v : Word16) : (s.setScratch v).timeDraws = s.timeDraws := rfl

@[simp] theorem State.setCmd_acc (w : Word16) : (s.setCmd w).acc = s.acc := rfl
@[simp] theorem State.setCmd_err (w : Word16) : (s.setCmd w).err = s.err := rfl
@[simp] theorem State.setCmd_checked (w : Word16) : (s.setCmd w).checked = s.checked := rfl
@[simp] theorem State.setCmd_valid (w : Word16) : (s.setCmd w).valid = s.valid := rfl
@[simp] theorem State.setCmd_msgp (w : Word16) : (s.setCmd w).msgp = s.msgp := rfl
@[simp] theorem State.setCmd_cmd (w : Word16) : (s.setCmd w).cmd = w := rfl
@[simp] theorem State.setCmd_inLen (w : Word16) : (s.setCmd w).inLen = s.inLen := rfl
@[simp] theorem State.setCmd_outLen (w : Word16) : (s.setCmd w).outLen = s.outLen := rfl
@[simp] theorem State.setCmd_msgCmd (w : Word16) : (s.setCmd w).msgCmd = s.msgCmd := rfl
@[simp] theorem State.setCmd_msgLen (w : Word16) : (s.setCmd w).msgLen = s.msgLen := rfl
@[simp] theorem State.setCmd_msgCrc (w : Word16) : (s.setCmd w).msgCrc = s.msgCrc := rfl
@[simp] theorem State.setCmd_verMaj (w : Word16) : (s.setCmd w).verMaj = s.verMaj := rfl
@[simp] theorem State.setCmd_verMin (w : Word16) : (s.setCmd w).verMin = s.verMin := rfl
@[simp] theorem State.setCmd_scratch (w : Word16) : (s.setCmd w).scratch = s.scratch := rfl
@[simp] theorem State.setCmd_msgPayload (w : Word16) : (s.setCmd w).msgPayload = s.msgPayload := rfl
@[simp] theorem State.setCmd_inBuf (w : Word16) : (s.setCmd w).inBuf = s.inBuf := rfl
@[simp] theorem State.setCmd_outBuf (w : Word16) : (s.setCmd w).outBuf = s.outBuf := rfl
@[simp] theorem State.setCmd_hostOps (w : Word16) : (s.setCmd w).hostOps = s.hostOps := rfl
@[simp] theorem State.setCmd_reply (w : Word16) : (s.setCmd w).reply = s.reply := rfl
@[simp] theorem State.setCmd_byteDraws (w : Word16) : (s.setCmd w).byteDraws = s.byteDraws := rfl
@[simp] theorem State.setCmd_timeDraws (w : Word16) : (s.setCmd w).timeDraws = s.timeDraws := rfl

@[simp] theorem State.setInLen_acc (v : Word16) : (s.setInLen v).acc = s.acc := rfl
@[simp] theorem State.setInLen_err (v : Word16) : (s.setInLen v).err = s.err := rfl
@[simp] theorem State.setInLen_checked (v : Word16) : (s.setInLen v).checked = s.checked := rfl
@[simp] theorem State.setInLen_valid (v : Word16) : (s.setInLen v).valid = s.valid := rfl
@[simp] theorem State.setInLen_msgp (v : Word16) : (s.setInLen v).msgp = s.msgp := rfl
@[simp] theorem State.setInLen_cmd (v : Word16) : (s.setInLen v).cmd = s.cmd := rfl
@[simp] theorem State.setInLen_inLen (v : Word16) : (s.setInLen v).inLen = v := rfl
@[simp] theorem State.setInLen_outLen (v : Word16) : (s.setInLen v).outLen = s.outLen := rfl
@[simp] theorem State.setInLen_msgCmd (v : Word16) : (s.setInLen v).msgCmd = s.msgCmd := rfl
@[simp] theorem State.setInLen_msgLen (v : Word16) : (s.setInLen v).msgLen = s.msgLen := rfl
@[simp] theorem State.setInLen_msgCrc (v : Word16) : (s.setInLen v).msgCrc = s.msgCrc := rfl
@[simp] theorem State.setInLen_verMaj (v : Word16) : (s.setInLen v).verMaj = s.verMaj := rfl
@[simp] theorem State.setInLen_verMin (v : Word16) : (s.setInLen v).verMin = s.verMin := rfl
@[simp] theorem State.setInLen_scratch (v : Word16) : (s.setInLen v).scratch = s.scratch := rfl
@[simp] theorem State.setInLen_msgPayload (v : Word16) : (s.setInLen v).msgPayload = s.msgPayload := rfl
@[simp] theorem State.setInLen_inBuf (v : Word16) : (s.setInLen v).inBuf = s.inBuf := rfl
@[simp] theorem State.setInLen_outBuf (v : Word16) : (s.setInLen v).outBuf = s.outBuf := rfl
@[simp] theorem State.setInLen_hostOps (v : Word16) : (s.setInLen v).hostOps = s.hostOps := rfl
@[simp] theorem State.setInLen_reply (v : Word16) : (s.setInLen v).reply = s.reply := rfl
@[simp] theorem State.setInLen_byteDraws (v : Word16) : (s.setInLen v).byteDraws = s.byteDraws := rfl
@[simp] theorem State.setInLen_timeDraws (v : Word16) : (s.setInLen v).timeDraws = s.timeDraws := rfl

@[simp] theorem State.setVerMaj_acc (v : Byte) : (s.setVerMaj v).acc = s.acc := rfl
@[simp] theorem State.setVerMaj_err (v : Byte) : (s.setVerMaj v).err = s.err := rfl
@[simp] theorem State.setVerMaj_checked (v : Byte) : (s.setVerMaj v).checked = s.checked := rfl
@[simp] theorem State.setVerMaj_valid (v : Byte) : (s.setVerMaj v).valid = s.valid := rfl
@[simp] theorem State.setVerMaj_msgp (v : Byte) : (s.setVerMaj v).msgp = s.msgp := rfl
@[simp] theorem State.setVerMaj_cmd (v : Byte) : (s.setVerMaj v).cmd = s.cmd := rfl
@[simp] theorem State.setVerMaj_inLen (v : Byte) : (s.setVerMaj v).inLen = s.inLen := rfl
@[simp] theorem State.setVerMaj_outLen (v : Byte) : (s.setVerMaj v).outLen = s.outLen := rfl
@[simp] theorem State.setVerMaj_msgCmd (v : Byte) : (s.setVerMaj v).msgCmd = s.msgCmd := rfl
@[simp] theorem State.setVerMaj_msgLen (v : Byte) : (s.setVerMaj v).msgLen = s.msgLen := rfl
@[simp] theorem State.setVerMaj_msgCrc (v : Byte) : (s.setVerMaj v).msgCrc = s.msgCrc := rfl
@[simp] theorem State.setVerMaj_verMaj (v : Byte) : (s.setVerMaj v).verMaj = v := rfl
@[simp] theorem State.setVerMaj_verMin (v : Byte) : (s.setVerMaj v).verMin = s.verMin := rfl
@[simp] theorem State.setVerMaj_scratch (v : Byte) : (s.setVerMaj v).scratch = s.scratch := rfl
@[simp] theorem State.setVerMaj_msgPayload (v : Byte) : (s.setVerMaj v).msgPayload = s.msgPayload := rfl
@[simp] theorem State.setVerMaj_inBuf (v : Byte) : (s.setVerMaj v).inBuf = s.inBuf := rfl
@[simp] theorem State.setVerMaj_outBuf (v : Byte) : (s.setVerMaj v).outBuf = s.outBuf := rfl
@[simp] theorem State.setVerMaj_hostOps (v : Byte) : (s.setVerMaj v).hostOps = s.hostOps := rfl
@[simp] theorem State.setVerMaj_reply (v : Byte) : (s.setVerMaj v).reply = s.reply := rfl
@[simp] theorem State.setVerMaj_byteDraws (v : Byte) : (s.setVerMaj v).byteDraws = s.byteDraws := rfl
@[simp] theorem State.setVerMaj_timeDraws (v : Byte) : (s.setVerMaj v).timeDraws = s.timeDraws := rfl

@[simp] theorem State.setVerMin_acc (v : Byte) : (s.setVerMin v).acc = s.acc := rfl
@[simp] theorem State.setVerMin_err (v : Byte) : (s.setVerMin v).err = s.err := rfl
@[simp] theorem State.setVerMin_checked (v : Byte) : (s.setVerMin v).checked = s.checked := rfl
@[simp] theorem State.setVerMin_valid (v : Byte) : (s.setVerMin v).valid = s.valid := rfl
@[simp] theorem State.setVerMin_msgp (v : Byte) : (s.setVerMin v).msgp = s.msgp := rfl
@[simp] theorem State.setVerMin_cmd (v : Byte) : (s.setVerMin v).cmd = s.cmd := rfl
@[simp] theorem State.setVerMin_inLen (v : Byte) : (s.setVerMin v).inLen = s.inLen := rfl
@[simp] theorem State.setVerMin_outLen (v : Byte) : (s.setVerMin v).outLen = s.outLen := rfl
@[simp] theorem State.setVerMin_msgCmd (v : Byte) : (s.setVerMin v).msgCmd = s.msgCmd := rfl
@[simp] theorem State.setVerMin_msgLen (v : Byte) : (s.setVerMin v).msgLen = s.msgLen := rfl
@[simp] theorem State.setVerMin_msgCrc (v : Byte) : (s.setVerMin v).msgCrc = s.msgCrc := rfl
@[simp] theorem State.setVerMin_verMaj (v : Byte) : (s.setVerMin v).verMaj = s.verMaj := rfl
@[simp] theorem State.setVerMin_verMin (v : Byte) : (s.setVerMin v).verMin = v := rfl
@[simp] theorem State.setVerMin_scratch (v : Byte) : (s.setVerMin v).scratch = s.scratch := rfl
@[simp] theorem State.setVerMin_msgPayload (v : Byte) : (s.setVerMin v).msgPayload = s.msgPayload := rfl
@[simp] theorem State.setVerMin_inBuf (v : Byte) : (s.setVerMin v).inBuf = s.inBuf := rfl
@[simp] theorem State.setVerMin_outBuf (v : Byte) : (s.setVerMin v).outBuf = s.outBuf := rfl
@[simp] theorem State.setVerMin_hostOps (v : Byte) : (s.setVerMin v).hostOps = s.hostOps := rfl
@[simp] theorem State.setVerMin_reply (v : Byte) : (s.setVerMin v).reply = s.reply := rfl
@[simp] theorem State.setVerMin_byteDraws (v : Byte) : (s.setVerMin v).byteDraws = s.byteDraws := rfl
@[simp] theorem State.setVerMin_timeDraws (v : Byte) : (s.setVerMin v).timeDraws = s.timeDraws := rfl

@[simp] theorem State.setInByte_acc (i : Nat) (b : Byte) : (s.setInByte i b).acc = s.acc := rfl
@[simp] theorem State.setInByte_err (i : Nat) (b : Byte) : (s.setInByte i b).err = s.err := rfl
@[simp] theorem State.setInByte_checked (i : Nat) (b : Byte) : (s.setInByte i b).checked = s.checked := rfl
@[simp] theorem State.setInByte_valid (i : Nat) (b : Byte) : (s.setInByte i b).valid = s.valid := rfl
@[simp] theorem State.setInByte_msgp (i : Nat) (b : Byte) : (s.setInByte i b).msgp = s.msgp := rfl
@[simp] theorem State.setInByte_cmd (i : Nat) (b : Byte) : (s.setInByte i b).cmd = s.cmd := rfl
@[simp] theorem State.setInByte_inLen (i : Nat) (b : Byte) : (s.setInByte i b).inLen = s.inLen := rfl
@[simp] theorem State.setInByte_outLen (i : Nat) (b : Byte) : (s.setInByte i b).outLen = s.outLen := rfl
@[simp] theorem State.setInByte_msgCmd (i : Nat) (b : Byte) : (s.setInByte i b).msgCmd = s.msgCmd := rfl
@[simp] theorem State.setInByte_msgLen (i : Nat) (b : Byte) : (s.setInByte i b).msgLen = s.msgLen := rfl
@[simp] theorem State.setInByte_msgCrc (i : Nat) (b : Byte) : (s.setInByte i b).msgCrc = s.msgCrc := rfl
@[simp] theorem State.setInByte_verMaj (i : Nat) (b : Byte) : (s.setInByte i b).verMaj = s.verMaj := rfl
@[simp] theorem State.setInByte_verMin (i : Nat) (b : Byte) : (s.setInByte i b).verMin = s.verMin := rfl
@[simp] theorem State.setInByte_scratch (i : Nat) (b : Byte) : (s.setInByte i b).scratch = s.scratch := rfl
@[simp] theorem State.setInByte_msgPayload (i : Nat) (b : Byte) : (s.setInByte i b).msgPayload = s.msgPayload := rfl
@[simp] theorem State.setInByte_inBuf (i : Nat) (b : Byte) : (s.setInByte i b).inBuf = s.inBuf.write i b := rfl
@[simp] theorem State.setInByte_outBuf (i : Nat) (b : Byte) : (s.setInByte i b).outBuf = s.outBuf := rfl
@[simp] theorem State.setInByte_hostOps (i : Nat) (b : Byte) : (s.setInByte i b).hostOps = s.hostOps := rfl
@[simp] theorem State.setInByte_reply (i : Nat) (b : Byte) : (s.setInByte i b).reply = s.reply := rfl
@[simp] theorem State.setInByte_byteDraws (i : Nat) (b : Byte) : (s.setInByte i b).byteDraws = s.byteDraws := rfl
@[simp] theorem State.setInByte_timeDraws (i : Nat) (b : Byte) : (s.setInByte i b).timeDraws = s.timeDraws := rfl

@[simp] theorem State.setMessage_acc (c n : Byte) (p : List Byte) (k : Word16) : (s.setMessage c n p k).acc = s.acc := rfl
@[simp] theorem State.setMessage_err (c n : Byte) (p : List Byte) (k : Word16) : (s.setMessage c n p k).err = s.err := rfl
@[simp] theorem State.setMessage_checked (c n : Byte) (p : List Byte) (k : Word16) : (s.setMessage c n p k).checked = s.checked := rfl
@[simp] theorem State.setMessage_valid (c n : Byte) (p : List Byte) (k : Word16) : (s.setMessage c n p k).valid = s.valid := rfl
@[simp] theorem State.setMessage_msgp (c n : Byte) (p : List Byte) (k : Word16) : (s.setMessage c n p k).msgp = s.msgp := rfl
@[simp] theorem State.setMessage_cmd (c n : Byte) (p : List Byte) (k : Word16) : (s.setMessage c n p k).cmd = s.cmd := rfl
@[simp] theorem State.setMessage_inLen (c n : Byte) (p : List Byte) (k : Word16) : (s.setMessage c n p k).inLen = s.inLen := rfl
@[simp] theorem State.setMessage_outLen (c n : Byte) (p : List Byte) (k : Word16) : (s.setMessage c n p k).outLen = s.outLen := rfl
@[simp] theorem State.setMessage_msgCmd (c n : Byte) (p : List Byte) (k : Word16) : (s.setMessage c n p k).msgCmd = c := rfl
@[simp] theorem State.setMessage_msgLen (c n : Byte) (p : List Byte) (k : Word16) : (s.setMessage c n p k).msgLen = n := rfl
@[simp] theorem State.setMessage_msgCrc (c n : Byte) (p : List Byte) (k : Word16) : (s.setMessage c n p k).msgCrc = k := rfl
@[simp] theorem State.setMessage_verMaj (c n : Byte) (p : List Byte) (k : Word16) : (s.setMessage c n p k).verMaj = s.verMaj := rfl
@[simp] theorem State.setMessage_verMin (c n : Byte) (p : List Byte) (k : Word16) : (s.setMessage c n p k).verMin = s.verMin := rfl
@[simp] theorem State.setMessage_scratch (c n : Byte) (p : List Byte) (k : Word16) : (s.setMessage c n p k).scratch = s.scratch := rfl
@[simp] theorem State.setMessage_msgPayload (c n : Byte) (p : List Byte) (k : Word16) : (s.setMessage c n p k).msgPayload = s.msgPayload.writeSeq 0 p := rfl
@[simp] theorem State.setMessage_inBuf (c n : Byte) (p : List Byte) (k : Word16) : (s.setMessage c n p k).inBuf = s.inBuf := rfl
@[simp] theorem State.setMessage_outBuf (c n : Byte) (p : List Byte) (k : Word16) : (s.setMessage c n p k).outBuf = s.outBuf := rfl
@[simp] theorem State.setMessage_hostOps (c n : Byte) (p : List Byte) (k : Word16) : (s.setMessage c n p k).hostOps = s.hostOps := rfl
@[simp] theorem State.setMessage_reply (c n : Byte) (p : List Byte) (k : Word16) : (s.setMessage c n p k).reply = s.reply := rfl
@[simp] theorem State.setMessage_byteDraws (c n : Byte) (p : List Byte) (k : Word16) : (s.setMessage c n p k).byteDraws = s.byteDraws := rfl
@[simp] theorem State.setMessage_timeDraws (c n : Byte) (p : List Byte) (k : Word16) : (s.setMessage c n p k).timeDraws = s.timeDraws := rfl

@[simp] theorem State.setFrame_acc (f : List Byte) : (s.setFrame f).acc = s.acc := rfl
@[simp] theorem State.setFrame_err (f : List Byte) : (s.setFrame f).err = s.err := rfl
@[simp] theorem State.setFrame_checked (f : List Byte) : (s.setFrame f).checked = s.checked := rfl
@[simp] theorem State.setFrame_valid (f : List Byte) : (s.setFrame f).valid = s.valid := rfl
@[simp] theorem State.setFrame_msgp (f : List Byte) : (s.setFrame f).msgp = s.msgp := rfl
@[simp] theorem State.setFrame_cmd (f : List Byte) : (s.setFrame f).cmd = s.cmd := rfl
@[simp] theorem State.setFrame_inLen (f : List Byte) : (s.setFrame f).inLen = s.inLen := rfl
@[simp] theorem State.setFrame_outLen (f : List Byte) : (s.setFrame f).outLen = BitVec.ofNat 16 f.length := rfl
@[simp] theorem State.setFrame_msgCmd (f : List Byte) : (s.setFrame f).msgCmd = s.msgCmd := rfl
@[simp] theorem State.setFrame_msgLen (f : List Byte) : (s.setFrame f).msgLen = s.msgLen := rfl
@[simp] theorem State.setFrame_msgCrc (f : List Byte) : (s.setFrame f).msgCrc = s.msgCrc := rfl
@[simp] theorem State.setFrame_verMaj (f : List Byte) : (s.setFrame f).verMaj = s.verMaj := rfl
@[simp] theorem State.setFrame_verMin (f : List Byte) : (s.setFrame f).verMin = s.verMin := rfl
@[simp] theorem State.setFrame_scratch (f : List Byte) : (s.setFrame f).scratch = s.scratch := rfl
@[simp] theorem State.setFrame_msgPayload (f : List Byte) : (s.setFrame f).msgPayload = s.msgPayload := rfl
@[simp] theorem State.setFrame_inBuf (f : List Byte) : (s.setFrame f).inBuf = s.inBuf := rfl
@[simp] theorem State.setFrame_outBuf (f : List Byte) : (s.setFrame f).outBuf = s.outBuf.writeSeq 0 f := rfl
@[simp] theorem State.setFrame_hostOps (f : List Byte) : (s.setFrame f).hostOps = s.hostOps := rfl
@[simp] theorem State.setFrame_reply (f : List Byte) : (s.setFrame f).reply = s.reply := rfl
@[simp] theorem State.setFrame_byteDraws (f : List Byte) : (s.setFrame f).byteDraws = s.byteDraws := rfl
@[simp] theorem State.setFrame_timeDraws (f : List Byte) : (s.setFrame f).timeDraws = s.timeDraws := rfl

@[simp] theorem State.buildMessage_acc (c : Byte) (p : List Byte) : (s.buildMessage c p).acc = s.acc := rfl
@[simp] theorem State.buildMessage_err (c : Byte) (p : List Byte) : (s.buildMessage c p).err = s.err := rfl
@[simp] theorem State.buildMessage_checked (c : Byte) (p : List Byte) : (s.buildMessage c p).checked = false := rfl
@[simp] theorem State.buildMessage_valid (c : Byte) (p : List Byte) : (s.buildMessage c p).valid = false := rfl
@[simp] theorem State.buildMessage_msgp (c : Byte) (p : List Byte) : (s.buildMessage c p).msgp = true := rfl
@[simp] theorem State.buildMessage_cmd (c : Byte) (p : List Byte) : (s.buildMessage c p).cmd = s.cmd := rfl
@[simp] theorem State.buildMessage_inLen (c : Byte) (p : List Byte) : (s.buildMessage c p).inLen = s.inLen := rfl
@[simp] theorem State.buildMessage_outLen (c : Byte) (p : List Byte) : (s.buildMessage c p).outLen = s.outLen := rfl
@[simp] theorem State.buildMessage_msgCmd (c : Byte) (p : List Byte) : (s.buildMessage c p).msgCmd = c := rfl
@[simp] theorem State.buildMessage_msgLen (c : Byte) (p : List Byte) : (s.buildMessage c p).msgLen = BitVec.ofNat 8 p.length := rfl
@[simp] theorem State.buildMessage_msgCrc (c : Byte) (p : List Byte) : (s.buildMessage c p).msgCrc = fieldsCrc c (BitVec.ofNat 8 p.length) p := rfl
@[simp] theorem State.buildMessage_verMaj (c : Byte) (p : List Byte) : (s.buildMessage c p).verMaj = s.verMaj := rfl
@[simp] theorem State.buildMessage_verMin (c : Byte) (p : List Byte) : (s.buildMessage c p).verMin = s.verMin := rfl
@[simp] theorem State.buildMessage_scratch (c : Byte) (p : List Byte) : (s.buildMessage c p).scratch = fieldsCrc c (BitVec.ofNat 8 p.length) p := rfl
@[simp] theorem State.buildMessage_msgPayload (c : Byte) (p : List Byte) : (s.buildMessage c p).msgPayload = s.msgPayload.writeSeq 0 p := rfl
@[simp] theorem State.buildMessage_inBuf (c : Byte) (p : List Byte) : (s.buildMessage c p).inBuf = s.inBuf := rfl
@[simp] theorem State.buildMessage_outBuf (c : Byte) (p : List Byte) : (s.buildMessage c p).outBuf = s.outBuf := rfl
@[simp] theorem State.buildMessage_hostOps (c : Byte) (p : List Byte) : (s.buildMessage c p).hostOps = s.hostOps := rfl
@[simp] theorem State.buildMessage_reply (c : Byte) (p : List Byte) : (s.buildMessage c p).reply = s.reply := rfl
@[simp] theorem State.buildMessage_byteDraws (c : Byte) (p : List Byte) : (s.buildMessage c p).byteDraws = s.byteDraws := rfl
@[simp] theorem State.buildMessage_timeDraws (c : Byte) (p : List Byte) : (s.buildMessage c p).timeDraws = s.timeDraws := rfl

@[simp] theorem State.accept_acc (r : List HostOp) : (s.accept r).acc = s.acc := rfl
@[simp] theorem State.accept_err (r : List HostOp) : (s.accept r).err = s.err := rfl
@[simp] theorem State.accept_checked (r : List HostOp) : (s.accept r).checked = s.checked := rfl
@[simp] theorem State.accept_valid (r : List HostOp) : (s.accept r).valid = s.valid := rfl
@[simp] theorem State.accept_msgp (r : List HostOp) : (s.accept r).msgp = s.msgp := rfl
@[simp] theorem State.accept_cmd (r : List HostOp) : (s.accept r).cmd = s.cmd := rfl
@[simp] theorem State.accept_inLen (r : List HostOp) : (s.accept r).inLen = s.inLen := rfl
@[simp] theorem State.accept_outLen (r : List HostOp) : (s.accept r).outLen = s.outLen := rfl
@[simp] theorem State.accept_msgCmd (r : List HostOp) : (s.accept r).msgCmd = s.msgCmd := rfl
@[simp] theorem State.accept_msgLen (r : List HostOp) : (s.accept r).msgLen = s.msgLen := rfl
@[simp] theorem State.accept_msgCrc (r : List HostOp) : (s.accept r).msgCrc = s.msgCrc := rfl
@[simp] theorem State.accept_verMaj (r : List HostOp) : (s.accept r).verMaj = s.verMaj := rfl
@[simp] theorem State.accept_verMin (r : List HostOp) : (s.accept r).verMin = s.verMin := rfl
@[simp] theorem State.accept_scratch (r : List HostOp) : (s.accept r).scratch = s.scratch := rfl
@[simp] theorem State.accept_msgPayload (r : List HostOp) : (s.accept r).msgPayload = s.msgPayload := rfl
@[simp] theorem State.accept_inBuf (r : List HostOp) : (s.accept r).inBuf = s.inBuf := rfl
@[simp] theorem State.accept_outBuf (r : List HostOp) : (s.accept r).outBuf = s.outBuf := rfl
@[simp] theorem State.accept_hostOps (r : List HostOp) : (s.accept r).hostOps = r := rfl
@[simp] theorem State.accept_reply (r : List HostOp) : (s.accept r).reply = .nothing := rfl
@[simp] theorem State.accept_byteDraws (r : List HostOp) : (s.accept r).byteDraws = s.byteDraws := rfl
@[simp] theorem State.accept_timeDraws (r : List HostOp) : (s.accept r).timeDraws = s.timeDraws := rfl

@[simp] theorem State.setReply_acc (r : HostReply) : (s.setReply r).acc = s.acc := rfl
@[simp] theorem State.setReply_err (r : HostReply) : (s.setReply r).err = s.err := rfl
@[simp] theorem State.setReply_checked (r : HostReply) : (s.setReply r).checked = s.checked := rfl
@[simp] theorem State.setReply_valid (r : HostReply) : (s.setReply r).valid = s.valid := rfl
@[simp] theorem State.setReply_msgp (r : HostReply) : (s.setReply r).msgp = s.msgp := rfl
@[simp] theorem State.setReply_cmd (r : HostReply) : (s.setReply r).cmd = s.cmd := rfl
@[simp] theorem State.setReply_inLen (r : HostReply) : (s.setReply r).inLen = s.inLen := rfl
@[simp] theorem State.setReply_outLen (r : HostReply) : (s.setReply r).outLen = s.outLen := rfl
@[simp] theorem State.setReply_msgCmd (r : HostReply) : (s.setReply r).msgCmd = s.msgCmd := rfl
@[simp] theorem State.setReply_msgLen (r : HostReply) : (s.setReply r).msgLen = s.msgLen := rfl
@[simp] theorem State.setReply_msgCrc (r : HostReply) : (s.setReply r).msgCrc = s.msgCrc := rfl
@[simp] theorem State.setReply_verMaj (r : HostReply) : (s.setReply r).verMaj = s.verMaj := rfl
@[simp] theorem State.setReply_verMin (r : HostReply) : (s.setReply r).verMin = s.verMin := rfl
@[simp] theorem State.setReply_scratch (r : HostReply) : (s.setReply r).scratch = s.scratch := rfl
@[simp] theorem State.setReply_msgPayload (r : HostReply) : (s.setReply r).msgPayload = s.msgPayload := rfl
@[simp] theorem State.setReply_inBuf (r : HostReply) : (s.setReply r).inBuf = s.inBuf := rfl
@[simp] theorem State.setReply_outBuf (r : HostReply) : (s.setReply r).outBuf = s.outBuf := rfl
@[simp] theorem State.setReply_hostOps (r : HostReply) : (s.setReply r).hostOps = s.hostOps := rfl
@[simp] theorem State.setReply_reply (r : HostReply) : (s.setReply r).reply = r := rfl
@[simp] theorem State.setReply_byteDraws (r : HostReply) : (s.setReply r).byteDraws = s.byteDraws := rfl
@[simp] theorem State.setReply_timeDraws (r : HostReply) : (s.setReply r).timeDraws = s.timeDraws := rfl

@[simp] theorem State.countByteDraw_acc : s.countByteDraw.acc = s.acc := rfl
@[simp] theorem State.countByteDraw_err : s.countByteDraw.err = s.err := rfl
@[simp] theorem State.countByteDraw_checked : s.countByteDraw.checked = s.checked := rfl
@[simp] theorem State.countByteDraw_valid : s.countByteDraw.valid = s.valid := rfl
@[simp] theorem State.countByteDraw_msgp : s.countByteDraw.msgp = s.msgp := rfl
@[simp] theorem State.countByteDraw_cmd : s.countByteDraw.cmd = s.cmd := rfl
@[simp] theorem State.countByteDraw_inLen : s.countByteDraw.inLen = s.inLen := rfl
@[simp] theorem State.countByteDraw_outLen : s.countByteDraw.outLen = s.outLen := rfl
@[simp] theorem State.countByteDraw_msgCmd : s.countByteDraw.msgCmd = s.msgCmd := rfl
@[simp] theorem State.countByteDraw_msgLen : s.countByteDraw.msgLen = s.msgLen := rfl
@[simp] theorem State.countByteDraw_msgCrc : s.countByteDraw.msgCrc = s.msgCrc := rfl
@[simp] theorem State.countByteDraw_verMaj : s.countByteDraw.verMaj = s.verMaj := rfl
@[simp] theorem State.countByteDraw_verMin : s.countByteDraw.verMin = s.verMin := rfl
@[simp] theorem State.countByteDraw_scratch : s.countByteDraw.scratch = s.scratch := rfl
@[simp] theorem State.countByteDraw_msgPayload : s.countByteDraw.msgPayload = s.msgPayload := rfl
@[simp] theorem State.countByteDraw_inBuf : s.countByteDraw.inBuf = s.inBuf := rfl
@[simp] theorem State.countByteDraw_outBuf : s.countByteDraw.outBuf = s.outBuf := rfl
@[simp] theorem State.countByteDraw_hostOps : s.countByteDraw.hostOps = s.hostOps := rfl
@[simp] theorem State.countByteDraw_reply : s.countByteDraw.reply = s.reply := rfl
@[simp] theorem State.countByteDraw_byteDraws : s.countByteDraw.byteDraws = s.byteDraws + 1 := rfl
@[simp] theorem State.countByteDraw_timeDraws : s.countByteDraw.timeDraws = s.timeDraws := rfl

@[simp] theorem State.countTimeDraw_acc : s.countTimeDraw.acc = s.acc := rfl
@[simp] theorem State.countTimeDraw_err : s.countTimeDraw.err = s.err := rfl
@[simp] theorem State.countTimeDraw_checked : s.countTimeDraw.checked = s.checked := rfl
@[simp] theorem State.countTimeDraw_valid : s.countTimeDraw.valid = s.valid := rfl
@[simp] theorem State.countTimeDraw_msgp : s.countTimeDraw.msgp = s.msgp := rfl
@[simp] theorem State.countTimeDraw_cmd : s.countTimeDraw.cmd = s.cmd := rfl
@[simp] theorem State.countTimeDraw_inLen : s.countTimeDraw.inLen = s.inLen := rfl
@[simp] theorem State.countTimeDraw_outLen : s.countTimeDraw.outLen = s.outLen := rfl
@[simp] theorem State.countTimeDraw_msgCmd : s.countTimeDraw.msgCmd = s.msgCmd := rfl
@[simp] theorem State.countTimeDraw_msgLen : s.countTimeDraw.msgLen = s.msgLen := rfl
@[simp] theorem State.countTimeDraw_msgCrc : s.countTimeDraw.msgCrc = s.msgCrc := rfl
@[simp] theorem State.countTimeDraw_verMaj : s.countTimeDraw.verMaj = s.verMaj := rfl
@[simp] theorem State.countTimeDraw_verMin : s.countTimeDraw.verMin = s.verMin := rfl
@[simp] theorem State.countTimeDraw_scratch : s.countTimeDraw.scratch = s.scratch := rfl
@[simp] theorem State.countTimeDraw_msgPayload : s.countTimeDraw.msgPayload = s.msgPayload := rfl
@[simp] theorem State.countTimeDraw_inBuf : s.countTimeDraw.inBuf = s.inBuf := rfl
@[simp] theorem State.countTimeDraw_outBuf : s.countTimeDraw.outBuf = s.outBuf := rfl
@[simp] theorem State.countTimeDraw_hostOps : s.countTimeDraw.hostOps = s.hostOps := rfl
@[simp] theorem State.countTimeDraw_reply : s.countTimeDraw.reply = s.reply := rfl
@[simp] theorem State.countTimeDraw_byteDraws : s.countTimeDraw.byteDraws = s.byteDraws := rfl
@[simp] theorem State.countTimeDraw_timeDraws : s.countTimeDraw.timeDraws = s.timeDraws + 1 := rfl

/-- Raising an error is writing STATUS.ERR (60_exceptions R162). -/
@[simp] theorem State.raise_eq (e : BitVec 3) : s.raise e = s.setErr e := rfl

/-- An illegal word writes ERR = 4 (60_exceptions R164). -/
@[simp] theorem State.illegalCommand_eq : s.illegalCommand = s.setErr errIllegalCommand := rfl

/-- The encode path, as the updates it is made of (41_codec R120). -/
theorem State.buildMessage_eq (c : Byte) (p : List Byte) :
    s.buildMessage c p =
      ((s.setScratch (fieldsCrc c (BitVec.ofNat 8 p.length) p)).setMessage c (BitVec.ofNat 8 p.length) p
        (fieldsCrc c (BitVec.ofNat 8 p.length) p)).messageReplaced := rfl

end Sys2Proof.Machine
end

