-- ==== Sys2Proof/Laws/Exec.lean ====
section
/-! SUPPORT. Each meaning, inverted once: if it answers a next state, then one of these cases holds. -/

namespace Sys2Proof.Machine

variable {s t : State}

theorem exec_crcInit_next (h : exec .crcInit s = .next t) : t = (s.setAcc crcInitial).setErr errOk := by
  cases h; rfl

theorem exec_crcFeed_next {b : Byte} (h : exec (.crcFeed b) s = .next t) :
    t = (s.setAcc (crcStep s.acc b)).setErr errOk := by
  cases h; rfl

theorem exec_crcFeedbuf_next (h : exec .crcFeedbuf s = .next t) :
    ∃ p, InputIs s p ∧ t = (s.setAcc (crcOf s.acc p)).setErr errOk := by
  simp only [exec, execCrcFeedbuf] at h
  split at h <;> cases h
  exact ⟨_, inputIs_of_readInput ‹_›, rfl⟩

theorem exec_msgEncode_next {c : Byte} (h : exec (.msgEncode c) s = .next t) :
    (255 < s.inLen.toNat ∧ t = s.setErr errPayloadTooLarge) ∨
    (s.inLen.toNat ≤ 255 ∧ ∃ p, InputIs s p ∧ t = (s.buildMessage c p).setErr errOk) := by
  simp only [exec, execMsgEncode] at h
  split at h
  · cases h; exact .inl ⟨‹_›, rfl⟩
  · split at h <;> cases h
    exact .inr ⟨by omega, _, inputIs_of_readInput ‹_›, rfl⟩

theorem exec_msgSerialize_next (h : exec .msgSerialize s = .next t) :
    (s.msgp = false ∧ t = s.setErr errNoMessage) ∨
    (s.msgp = true ∧
      t = (s.setFrame (frameBytes s.msgCmd s.msgLen (payloadBytes s) s.msgCrc)).setErr errOk) := by
  simp only [exec, execMsgSerialize] at h
  split at h <;> cases h
  · exact .inl ⟨‹_›, rfl⟩
  · exact .inr ⟨by simpa using ‹¬s.msgp = false›, rfl⟩

theorem exec_msgParse_next (h : exec .msgParse s = .next t) :
    (s.inLen.toNat < 4 ∧ t = s.setErr errTruncatedMessage) ∨
    (4 ≤ s.inLen.toNat ∧ ∃ len, s.inBuf.read 1 = some len ∧
      ((s.inLen.toNat < 4 + len.toNat ∧ t = s.setErr errTruncatedMessage) ∨
       (4 + len.toNat ≤ s.inLen.toNat ∧ ∃ c p lo hi, s.inBuf.read 0 = some c ∧ p.length = len.toNat ∧
          s.inBuf.Holds 2 p ∧ s.inBuf.read (2 + len.toNat) = some lo ∧ s.inBuf.read (3 + len.toNat) = some hi ∧
          t = ((s.setMessage c len p (fromLe16 lo hi)).messageReplaced).setErr errOk))) := by
  simp only [exec, execMsgParse] at h
  split at h
  · cases h; exact .inl ⟨‹_›, rfl⟩
  · refine .inr ⟨by omega, ?_⟩
    split at h
    · cases h
    · cases h
    · rename_i len hl
      refine ⟨len, hl, ?_⟩
      split at h
      · cases h; exact .inl ⟨‹_›, rfl⟩
      · refine .inr ⟨by omega, ?_⟩
        split at h
        · cases h
        · cases h
        · rename_i c p hc hp
          split at h <;> cases h
          obtain ⟨h1, h2⟩ := readInput_ok hp
          exact ⟨c, p, _, _, hc, h1, h2, ‹_›, ‹_›, rfl⟩

theorem exec_msgValidate_next (h : exec .msgValidate s = .next t) :
    (s.msgp = false ∧ t = s.setErr errNoMessage) ∨
    (s.msgp = true ∧
      t = ((s.setScratch (messageCrc s)).messageChecked (messageCrc s == s.msgCrc)).setErr errOk) := by
  simp only [exec, execMsgValidate] at h
  split at h <;> cases h
  · exact .inl ⟨‹_›, rfl⟩
  · exact .inr ⟨by simpa using ‹¬s.msgp = false›, rfl⟩

theorem exec_pingBuild_next (h : exec .pingBuild s = .next t) :
    t = ((s.countTimeDraw.buildMessage cmdPing (pingPayloadNow s)).setFrame
      (pingFrame (pingPayloadNow s))).setErr errOk := by
  cases h; rfl

end Sys2Proof.Machine
end

