-- ==== Sys2Proof/Laws/HostOps.lean ====
section
/-! SUPPORT. How a step takes the next host operation, and how sequences of host operations compose. -/

namespace Sys2Proof.Machine

variable {s t : State}

/-- A step with an operation pending is that operation (20_memory R55). -/
theorem step_cons {op : HostOp} {rest : List HostOp} (h : s.hostOps = op :: rest) :
    step s = hostOp op (s.accept rest) := by
  simp only [step, hostStep, h]

/-- A step that answers a next state idles or takes one operation. -/
theorem step_next (h : step s = .next t) :
    (s.hostOps = [] ∧ t = s) ∨ ∃ op rest, s.hostOps = op :: rest ∧ hostOp op (s.accept rest) = .next t := by
  simp only [step, hostStep] at h
  split at h
  · cases h; exact .inl ⟨‹_›, rfl⟩
  · exact .inr ⟨_, _, ‹_›, h⟩

/-- Issuing a word either executes the command it encodes or writes ILLEGAL_COMMAND (10_state R26, 60_exceptions R164). -/
theorem issueCommand_next {w : Word16} (h : issueCommand w s = .next t) :
    (∃ i, decodeWord w = .ok i ∧ exec i (s.setCmd w) = .next t) ∨
    (∃ e, decodeWord w = .error e ∧ t = (s.setCmd w).setErr errIllegalCommand) := by
  simp only [issueCommand] at h
  split at h
  · exact .inl ⟨_, ‹_›, h⟩
  · cases h; exact .inr ⟨_, ‹_›, rfl⟩

/-- What a host write to a register can do (20_memory R63). -/
theorem regWrite_next {n : BitVec 8} {v : Word16} (h : regWrite n v s = .next t) :
    (n = regCmd ∧ issueCommand v s = .next t) ∨
    (n = regInLen ∧ v.toNat ≤ Config.inCap ∧ t = s.setInLen v) ∨
    (n = regVerMaj ∧ t = s.setVerMaj (v.setWidth 8)) ∨
    (n = regVerMin ∧ t = s.setVerMin (v.setWidth 8)) ∨
    t = s := by
  simp only [regWrite] at h
  split at h
  · exact .inl ⟨‹_›, h⟩
  · split at h
    · cases h
      split
      · exact .inr (.inl ⟨‹_›, ‹_›, rfl⟩)
      · simp
    · split at h
      · cases h; exact .inr (.inr (.inl ⟨‹_›, rfl⟩))
      · split at h <;> cases h
        · exact .inr (.inr (.inr (.inl ⟨‹_›, rfl⟩)))
        · simp

/-- What a host read of a buffer byte can do (20_memory R59). -/
theorem bufRead_cases (a : BufIndex) (s : State) :
    (∃ b, bufByte a s = some b ∧ bufRead a s = s.setReply (.byte b)) ∨
    (bufByte a s = none ∧ bufRead a s = (s.setReply (.byte (Config.freeByte s.byteDraws))).countByteDraw) := by
  unfold bufRead
  split
  · exact .inl ⟨_, ‹_›, rfl⟩
  · exact .inr ⟨‹_›, rfl⟩

/-- What a host write of a buffer byte can do (20_memory R60). -/
theorem bufWrite_cases (a : BufIndex) (b : Byte) (s : State) :
    (∃ i, a = .inBuf i ∧ i.toNat < Config.inCap ∧ bufWrite a b s = s.setInByte i.toNat b) ∨ bufWrite a b s = s := by
  unfold bufWrite
  split
  · split
    · exact .inl ⟨_, rfl, ‹_›, rfl⟩
    · exact .inr rfl
  · exact .inr rfl
  · exact .inr rfl

/-- Two sequences one after the other. -/
theorem runHostOps_append (a b : List HostOp) (s : State) :
    runHostOps (a ++ b) s = andThen (runHostOps a s) (runHostOps b) := by
  induction a generalizing s with
  | nil => rfl
  | cons op a ih =>
    simp only [List.cons_append, runHostOps]
    cases hostOp op (s.accept s.hostOps) with
    | next t => exact ih t
    | fault f => rfl
    | refused r => rfl

end Sys2Proof.Machine
end

