-- ==== Sys2Proof/Laws/PerInstr.lean ====
section
/-! SUPPORT. For every command: its word carries its operation code in [15:8] and its operand in [7:0] (30_encoding R72),
and the word matches a row of the opcode table (R75). -/

namespace Sys2Proof.Laws.WordFields

/-- The two fields of the command's word, and that some row covers the word. -/
def Statement (i : Instr) : Prop :=
  opField (encode i) = i.opcode ∧ immField (encode i) = i.operand ∧ wellFormedWord (encode i) = true

theorem opField_commandWord (op imm : Byte) : opField (commandWord op imm) = op := by
  apply BitVec.eq_of_getLsbD_eq
  intro i hi
  rw [opField, BitVec.getLsbD_extractLsb', commandWord, BitVec.getLsbD_append]
  simp [hi]

theorem immField_commandWord (op imm : Byte) : immField (commandWord op imm) = imm := by
  apply BitVec.eq_of_getLsbD_eq
  intro i hi
  rw [immField, BitVec.getLsbD_extractLsb', commandWord, BitVec.getLsbD_append]
  simp [hi]

/-- A row that leaves IMM8 free covers every word with its OP. -/
theorem covers_of_op (r : OpcodeRow) (op imm : Byte) (hm : r.mask = 0xFF00#16) (hp : r.pattern = op ++ 0x00#8) :
    r.covers (commandWord op imm) = true := by
  rw [OpcodeRow.covers, beq_iff_eq, hm, hp]
  apply BitVec.eq_of_getLsbD_eq
  intro i hi
  rw [BitVec.getLsbD_and, commandWord, BitVec.getLsbD_append, BitVec.getLsbD_append]
  split
  · have h0 : (0xFF00#16).getLsbD i = false := by
      have : ∀ j : Fin 8, (0xFF00#16).getLsbD j = false := by decide
      exact this ⟨i, ‹_›⟩
    simp [h0]
  · have h1 : (0xFF00#16).getLsbD i = true := by
      have : ∀ j : Fin 8, (0xFF00#16).getLsbD (j + 8) = true := by decide
      have := this ⟨i - 8, by omega⟩
      simpa [show i - 8 + 8 = i by omega] using this
    simp [h1]

theorem crcInit : Statement .crcInit := by unfold Statement; decide
theorem crcFeed (b : Byte) : Statement (.crcFeed b) :=
  ⟨opField_commandWord _ _, immField_commandWord _ _,
    List.any_eq_true.2 ⟨⟨"CRC_FEED", 0xFF00#16, 0x0200#16⟩, by decide, covers_of_op _ 0x02#8 b rfl (by decide)⟩⟩
theorem crcFeedbuf : Statement .crcFeedbuf := by unfold Statement; decide
theorem msgEncode (c : Byte) : Statement (.msgEncode c) :=
  ⟨opField_commandWord _ _, immField_commandWord _ _,
    List.any_eq_true.2 ⟨⟨"MSG_ENCODE", 0xFF00#16, 0x1000#16⟩, by decide, covers_of_op _ 0x10#8 c rfl (by decide)⟩⟩
theorem msgSerialize : Statement .msgSerialize := by unfold Statement; decide
theorem msgParse : Statement .msgParse := by unfold Statement; decide
theorem msgValidate : Statement .msgValidate := by unfold Statement; decide
theorem pingBuild : Statement .pingBuild := by unfold Statement; decide

end Sys2Proof.Laws.WordFields
end

