-- ==== Sys2Proof/Tests/Slice0.lean ====
section
/-! SUPPORT. Tests of single steps against the spec's worked examples, the decode and well-formedness tests, and a witness
for every statement that has hypotheses. Expected values come from 95_test_vectors.md, 30_encoding.md or 40_crc.md. -/

open Sys2Proof Sys2Proof.Machine

namespace Sys2Proof.Tests

/-- A reset block whose host has written p into IN_BUF and its length into IN_LEN. -/
def withInput (p : List Byte) : State :=
  { State.reset with inBuf := Memory.writeSeq [] 0 p, inLen := BitVec.ofNat 16 p.length }

/-- A reset block whose host is about to issue the operations. -/
def pending (ops : List HostOp) : State := { State.reset with hostOps := ops }

/-- A reset block that holds a message. -/
def holding (c : Byte) (p : List Byte) (k : Word16) : State :=
  { State.reset with
    msgCmd := c
    msgLen := BitVec.ofNat 8 p.length
    msgPayload := Memory.writeSeq [] 0 p
    msgCrc := k
    msgp := true }

/-- The outcome is a next state that passes the check. -/
def gives (o : Host.Outcome State Fault Refusal) (f : State → Bool) : Bool :=
  match o with
  | .next t => f t
  | .fault _ => false
  | .refused _ => false

/-- The outcome is the fault. -/
def faults (o : Host.Outcome State Fault Refusal) (f : Fault) : Bool :=
  match o with
  | .next _ => false
  | .fault g => g == f
  | .refused _ => false

/-! ## Decoding and well-formedness (30_encoding R74-R76; 95_test_vectors 2.5) -/

theorem test_decode_crcInit : decodeWord 0b0000000100000000#16 = .ok .crcInit := by rfl
theorem test_decode_crcFeed : decodeWord 0b0000001000110001#16 = .ok (.crcFeed 0x31#8) := by rfl
theorem test_decode_crcFeedbuf : decodeWord 0b0000001100000000#16 = .ok .crcFeedbuf := by rfl
theorem test_decode_msgEncode : decodeWord 0b0001000011111110#16 = .ok (.msgEncode 0xFE#8) := by rfl
theorem test_decode_msgSerialize : decodeWord 0b0001000100000000#16 = .ok .msgSerialize := by rfl
theorem test_decode_msgParse : decodeWord 0b0001001000000000#16 = .ok .msgParse := by rfl
theorem test_decode_msgValidate : decodeWord 0b0001001100000000#16 = .ok .msgValidate := by rfl
theorem test_decode_pingBuild : decodeWord 0b0010000000000000#16 = .ok .pingBuild := by rfl

theorem test_decode_zero_word_is_illegal : decodeWord 0x0000#16 = .error (.unknownOp 0x00#8) := by rfl
theorem test_decode_operand_must_be_zero : decodeWord 0x1280#16 = .error (.operandNotZero 0x12#8 0x80#8) := by rfl

theorem test_encode_words :
    encode .crcFeedbuf = 0x0300#16 ∧ encode (.crcFeed 0xFF#8) = 0x02FF#16 ∧ encode (.msgEncode 0xFC#8) = 0x10FC#16 := by
  decide

theorem test_decodeTableWord : decodeTableWord 16 0x2000 = some .pingBuild ∧ decodeTableWord 16 0x2001 = none := by
  decide

/-- Every command value is well formed, and a word is refused by either check of the table: an unknown OP, an IMM8 that
must be 0x00 (30_encoding R75). -/
theorem test_wellFormed_smoke :
    (Instr.crcFeed 0xFF#8).wellFormed = true ∧ wellFormedWord 0x02FF#16 = true ∧
      wellFormedWord 0x0400#16 = false ∧ wellFormedWord 0x0101#16 = false := by
  decide

/-! ## One step of each command -/

/-- 95_test_vectors 2.2, first row. -/
theorem test_crcInit : gives (exec .crcInit { State.reset with acc := 0x1234#16 }) (fun t => t.acc == 0xFFFF#16) := by
  decide

/-- 40_crc R104, example. -/
theorem test_crcFeed : gives (exec (.crcFeed 0x31#8) State.reset) (fun t => t.acc == 0x2F8D#16) := by decide

/-- 95_test_vectors 2.1: ACC = 0xABCD, byte 0xCD. -/
theorem test_crcFeed_low_byte :
    gives (exec (.crcFeed 0xCD#8) { State.reset with acc := 0xABCD#16 }) (fun t => t.acc == 0x00AB#16) := by
  decide

/-- 40_crc R105, example: "123456789". -/
theorem test_crcFeedbuf :
    gives (exec .crcFeedbuf (withInput [0x31#8, 0x32#8, 0x33#8, 0x34#8, 0x35#8, 0x36#8, 0x37#8, 0x38#8, 0x39#8]))
      (fun t => t.acc == 0x6F91#16) := by
  decide

/-- 60_exceptions R166: an unwritten byte below IN_LEN. -/
theorem test_crcFeedbuf_unwritten :
    faults (exec .crcFeedbuf { withInput [0x31#8] with inLen := 2#16 }) (.unwrittenInput 1) := by
  decide

/-- 95_test_vectors E1. -/
theorem test_msgEncode :
    gives (exec (.msgEncode 0xFC#8) (withInput [0x01#8, 0x02#8, 0x03#8]))
      (fun t => t.msgCrc == 0xA624#16 && t.msgLen == 3#8 && t.msgPayload.read 2 == some 0x03#8 && t.msgp) := by
  decide

/-- 95_test_vectors E6, from a reset block. -/
theorem test_msgEncode_too_large :
    gives (exec (.msgEncode 0xFC#8) { State.reset with inLen := 256#16 }) (fun t => t.err == 1#3 && !t.msgp) := by
  decide

/-- 95_test_vectors S1: `FC 03 01 02 03 24 A6`. -/
theorem test_msgSerialize :
    gives (exec .msgSerialize (holding 0xFC#8 [0x01#8, 0x02#8, 0x03#8] 0xA624#16))
      (fun t => t.outLen == 7#16 && t.outBuf == Memory.writeSeq [] 0
        [0xFC#8, 0x03#8, 0x01#8, 0x02#8, 0x03#8, 0x24#8, 0xA6#8]) := by
  decide

/-- 95_test_vectors S3. -/
theorem test_msgSerialize_no_message :
    gives (exec .msgSerialize State.reset) (fun t => t.err == 3#3 && t.outLen == 0#16) := by
  decide

/-- 95_test_vectors P5: the trailing bytes are ignored. -/
theorem test_msgParse :
    gives (exec .msgParse (withInput [0xFC#8, 0x00#8, 0x10#8, 0x25#8, 0xEE#8, 0xEE#8]))
      (fun t => t.msgCmd == 0xFC#8 && t.msgLen == 0#8 && t.msgCrc == 0x2510#16 && t.err == 0#3) := by
  decide

/-- 95_test_vectors P2: 6 < 4 + 3. -/
theorem test_msgParse_truncated :
    gives (exec .msgParse (withInput [0xFC#8, 0x03#8, 0x01#8, 0x02#8, 0x03#8, 0x24#8]))
      (fun t => t.err == 2#3 && !t.msgp) := by
  decide

/-- 95_test_vectors V1. -/
theorem test_msgValidate :
    gives (exec .msgValidate (holding 0xFE#8
        [0x01#8, 0x02#8, 0x03#8, 0x04#8, 0x05#8, 0x06#8, 0x07#8, 0x08#8, 0x01#8, 0x01#8] 0xA696#16))
      (fun t => statusWord t == 0x38#8) := by
  decide

/-- 95_test_vectors V2: recomputed 0x0460. -/
theorem test_msgValidate_mismatch :
    gives (exec .msgValidate (holding 0xFE#8
        [0x81#8, 0x02#8, 0x03#8, 0x04#8, 0x05#8, 0x06#8, 0x07#8, 0x08#8, 0x01#8, 0x01#8] 0xA696#16))
      (fun t => t.scratch == 0x0460#16 && t.checked && !t.valid && t.err == 0#3) := by
  decide

/-- 95_test_vectors 2.4: the frame for version 2.0 and T = 0xFFFFFFFFFFFFFFFF. -/
theorem test_pingFrame :
    pingFrame (pingPayload 0xFFFFFFFFFFFFFFFF#64 2#8 0#8) =
      [0xFE#8, 0x0A#8, 0xFF#8, 0xFF#8, 0xFF#8, 0xFF#8, 0xFF#8, 0xFF#8, 0xFF#8, 0xFF#8, 0x02#8, 0x00#8,
       0xAA#8, 0x9A#8] := by
  decide

/-- 95_test_vectors 2.4: what every draw of T gives. -/
theorem test_pingBuild :
    gives (exec .pingBuild State.reset)
      (fun t => t.outLen == 14#16 && t.outBuf.read 0 == some 0xFE#8 && t.outBuf.read 10 == some 0x01#8 && t.msgLen == 10#8) := by
  decide

/-! ## The step and the host's operations -/

/-- A word placed for the next step is run by it: `msg.encode 0x00` with IN_LEN = 0 (95_test_vectors E2). -/
theorem test_step_runs_the_placed_word :
    gives (step (State.reset.withFetchWord 16 0x1000)) (fun t => t.msgCrc == 0xF0B8#16 && t.cmd == 0x1000#16) := by
  decide

/-- 95_test_vectors 2.5: 0x0101 is illegal (row 8 of 2.2). -/
theorem test_step_illegal_word :
    gives (step (State.reset.withFetchWord 16 0x0101)) (fun t => t.err == 4#3 && t.cmd == 0x0101#16 && t.acc == 0xFFFF#16) := by
  decide

/-- 95_test_vectors, program P-C: STATUS = 0x2C. -/
theorem test_statusWord :
    statusWord { State.reset with msgp := true, checked := true, err := 4#3 } = 0x2C#8 := by
  decide

/-- 20_memory R60: OUT_BUF at 259 reads 0. -/
theorem test_bufRead_beyond_capacity :
    gives (step (pending [.bufRead (.outBuf 259#16)])) (fun t => t.reply == .byte 0x00#8 && t.byteDraws == 0) := by
  decide

/-- 30_encoding R77, R78. -/
theorem test_assemble :
    assemble (.command (.crcFeed 0x31#8)) = some [.regWrite 0x02#8 0x0231#16] ∧
    assemble (.loadIn [0x01#8, 0x02#8]) =
      some [.bufWrite (.inBuf 0#16) 0x01#8, .bufWrite (.inBuf 1#16) 0x02#8, .regWrite 0x03#8 2#16] ∧
    assemble (.wrin 65535#16 [0x00#8, 0x00#8]) = none := by
  decide

/-! ## Witnesses: for each statement with hypotheses, a concrete case that meets them together -/

theorem withInput_is (p : List Byte) (h : p.length ≤ 65535) : InputIs (withInput p) p := by
  refine ⟨?_, Memory.holds_writeSeq [] 0 p⟩
  simp [withInput]; omega

theorem holding_is (c : Byte) (p : List Byte) (k : Word16) (h : p.length ≤ 255) : MessageIs (holding c p k) c p k := by
  refine ⟨rfl, ?_, Memory.holds_writeSeq [] 0 p, rfl⟩
  simp [holding]; omega

/-- The largest payload. -/
def longest : List Byte := List.replicate 255 0x00#8

theorem longest_length : longest.length = 255 := List.length_replicate

theorem witness_DecodeOfEncodeIsTheCommand : (Instr.msgEncode 0xFF#8).wellFormed = true := by rfl

theorem witness_DecodedWordIsTheEncoding : decodeWord 0x02FF#16 = .ok (.crcFeed 0xFF#8) := by rfl

theorem witness_EveryWordIsOneRowOrIllegal :
    wellFormedWord 0x0200#16 = true ∧
    (∃ r ∈ opcodeTable, r.covers 0x02FF#16 = true) ∧
    (wellFormedWord 0x0401#16 = false ∧ (pending [.regWrite 0x02#8 0x0401#16]).hostOps = [.regWrite 0x02#8 0x0401#16]) ∧
    opField 0x0401#16 ∉ [0x01#8, 0x02#8, 0x03#8, 0x10#8, 0x11#8, 0x12#8, 0x13#8, 0x20#8] ∧
    (opField 0x2001#16 ∈ [0x01#8, 0x03#8, 0x11#8, 0x12#8, 0x13#8, 0x20#8] ∧ immField 0x2001#16 ≠ 0x00#8) := by
  decide

theorem witness_IllegalWordSetsErrAndCmdOnly :
    (pending [.regWrite 0x02#8 0x0000#16]).hostOps = [.regWrite 0x02#8 0x0000#16] ∧
      ∀ i, decodeWord 0x0000#16 ≠ .ok i :=
  ⟨rfl, fun _ h => by cases h⟩

theorem witness_StepRunsTheDecodedCommand :
    (pending [.regWrite 0x02#8 0x0100#16]).hostOps = [.regWrite 0x02#8 0x0100#16] ∧
      decodeWord 0x0100#16 = .ok .crcInit ∧ Instr.crcInit.wellFormed = true := by
  refine ⟨rfl, rfl, rfl⟩

theorem witness_CmdHoldsTheLastWordWritten :
    (∃ t, step (pending [.regWrite 0x02#8 0x0100#16]) = .next t ∧ decodeWord 0x0100#16 = .ok .crcInit) ∧
    (∃ t, step (pending [.regWrite 0x02#8 0x0100#16]) = .next t ∧ t.cmd ≠ State.reset.cmd) ∧
    (∃ t, step { pending [.reset] with cmd := 1#16 } = .next t ∧ t.cmd ≠ 1#16) ∧
    (pending [.regRead 0x02#8]).hostOps = [.regRead 0x02#8] :=
  ⟨⟨_, rfl, rfl⟩, ⟨_, rfl, by decide⟩, ⟨_, rfl, by decide⟩, rfl⟩

theorem witness_BlockIsIdleWithoutHostOperation : State.reset.hostOps = [] := by rfl

theorem witness_CrcFeedingIsCompositional :
    InputIs (withInput ([0x31#8] ++ [0x32#8])) ([0x31#8] ++ [0x32#8]) ∧ InputIs (withInput [0x31#8]) [0x31#8] ∧
    InputIs { withInput [0x32#8] with acc := 0x2F8D#16 } [0x32#8] ∧
    (withInput [0x31#8]).acc = (withInput ([0x31#8] ++ [0x32#8])).acc ∧
    gives (exec .crcFeedbuf (withInput [0x31#8])) (fun t => t.acc == 0x2F8D#16) := by
  refine ⟨withInput_is _ (by decide), withInput_is _ (by decide), ?_, rfl, by decide⟩
  exact ⟨(withInput_is [0x32#8] (by decide)).1, (withInput_is [0x32#8] (by decide)).2⟩

theorem witness_ValidFrameLeavesZeroResidue :
    ((3#8).toNat = [0x01#8, 0x02#8, 0x03#8].length) ∧
    InputIs (withInput ([0xFC#8, 3#8] ++ [0x01#8, 0x02#8, 0x03#8] ++
        le16 (crcOf 0xFFFF#16 ([0xFC#8, 3#8] ++ [0x01#8, 0x02#8, 0x03#8]))))
      ([0xFC#8, 3#8] ++ [0x01#8, 0x02#8, 0x03#8] ++
        le16 (crcOf 0xFFFF#16 ([0xFC#8, 3#8] ++ [0x01#8, 0x02#8, 0x03#8]))) :=
  ⟨rfl, withInput_is _ (by decide)⟩

theorem witness_CrcFeedbufResult :
    InputIs (withInput [0x31#8]) [0x31#8] ∧ InputIs (withInput []) [] :=
  ⟨withInput_is _ (by decide), withInput_is _ (by decide)⟩

theorem witness_AccChangesByCrcCommandsOnly :
    (pending [.regRead 0x00#8]).hostOps = [.regRead 0x00#8] ∧
    (∃ t, step (pending [.regWrite 0x02#8 0x0231#16]) = .next t ∧ t.acc ≠ State.reset.acc) ∧
    (∃ t, step { pending [.reset] with acc := 0#16 } = .next t ∧ t.acc ≠ 0#16) :=
  ⟨rfl, ⟨_, rfl, by decide⟩, ⟨_, rfl, by decide⟩⟩

theorem witness_CrcCommandsFrame :
    (∃ t, exec .crcInit State.reset = .next t) ∧ (∃ t, exec (.crcFeed 0xFF#8) State.reset = .next t) ∧
    (∃ t, exec .crcFeedbuf (withInput [0x31#8]) = .next t) :=
  ⟨⟨_, rfl⟩, ⟨_, rfl⟩, ⟨_, rfl⟩⟩

theorem witness_MsgEncodeResult :
    ([] : List Byte).length ≤ 255 ∧ InputIs (withInput []) [] ∧
    longest.length ≤ 255 ∧ InputIs (withInput longest) longest :=
  ⟨by decide, withInput_is _ (by decide), by rw [longest_length], withInput_is _ (by rw [longest_length]; decide)⟩

theorem witness_EncodedMessageIsConsistent :
    ∃ t, exec (.msgEncode 0xFC#8) (withInput [0xAA#8]) = .next t ∧ t.err = 0#3 := ⟨_, rfl, rfl⟩

theorem witness_EncodeRejectsLongPayload : 255 < ({ State.reset with inLen := 256#16 } : State).inLen.toNat := by decide

theorem witness_MsgSerializeResult :
    ((holding 0xFC#8 [] 0x2510#16).msgp = true ∧ MessageIs (holding 0xFC#8 [] 0x2510#16) 0xFC#8 [] 0x2510#16) ∧
    ((holding 0xFC#8 longest 0x8C3E#16).msgp = true ∧
      MessageIs (holding 0xFC#8 longest 0x8C3E#16) 0xFC#8 longest 0x8C3E#16) :=
  ⟨⟨rfl, holding_is _ _ _ (by decide)⟩, ⟨rfl, holding_is _ _ _ (by rw [longest_length])⟩⟩

theorem witness_SerializeKeepsTheHeldCrc :
    (holding 0xFC#8 [0x01#8] 0xBAD0#16).msgp = true ∧
      ∃ t, exec .msgSerialize (holding 0xFC#8 [0x01#8] 0xBAD0#16) = .next t := ⟨rfl, _, rfl⟩

theorem witness_NoMessageErrorChangesErrOnly : State.reset.msgp = false := by rfl

/-- An exact fit of the longest frame, and a short frame followed by bytes that nothing has written. -/
theorem witness_MsgParseResult :
    (longest.length = (255#8).toNat ∧
      (withInput ([0xFC#8, 255#8] ++ longest ++ [0x3E#8, 0x8C#8])).inBuf.Holds 0 ([0xFC#8, 255#8] ++ longest ++ [0x3E#8, 0x8C#8]) ∧
      4 + (255#8).toNat ≤ (withInput ([0xFC#8, 255#8] ++ longest ++ [0x3E#8, 0x8C#8])).inLen.toNat) ∧
    (let s : State := { withInput ([0xFC#8, 0#8] ++ [] ++ [0x10#8, 0x25#8]) with inLen := 259#16 }
     ([] : List Byte).length = (0#8).toNat ∧ s.inBuf.Holds 0 ([0xFC#8, 0#8] ++ [] ++ [0x10#8, 0x25#8]) ∧
       4 + (0#8).toNat ≤ s.inLen.toNat ∧ s.inBuf.read 4 = none) := by
  have hl : ([0xFC#8, 255#8] ++ longest ++ [0x3E#8, 0x8C#8]).length = 259 := by simp [longest_length]
  have h := withInput_is ([0xFC#8, 255#8] ++ longest ++ [0x3E#8, 0x8C#8]) (by omega)
  refine ⟨⟨longest_length, h.2, ?_⟩, rfl, (withInput_is _ (by decide)).2, by decide, by decide⟩
  rw [h.1, hl]; decide

/-- The first clause at IN_LEN 3 with no byte written; the second with IN_BUF[0] unwritten and IN_LEN one below 4 + IN_BUF[1]. -/
theorem witness_ParseRejectsTruncatedInput :
    (let s : State := { State.reset with inLen := 3#16 }
     s.inLen.toNat < 4 ∧ s.inBuf.read 0 = none ∧ s.inBuf.read 1 = none) ∧
    (let s : State := { State.reset with inLen := 4#16, inBuf := [(1, 0x01#8)] }
     s.inBuf.read 0 = none ∧ s.inBuf.read 1 = some 0x01#8 ∧ s.inLen.toNat < 4 + (0x01#8).toNat) := by
  decide

theorem witness_MsgValidateResult :
    (holding 0xFC#8 longest 0x8C3E#16).msgp = true ∧ MessageIs (holding 0xFC#8 longest 0x8C3E#16) 0xFC#8 longest 0x8C3E#16 :=
  ⟨rfl, holding_is _ _ _ (by rw [longest_length])⟩

theorem witness_RepeatedCommandsGiveTheSameState :
    (holding 0xFC#8 [] 0x2510#16).msgp = true ∧
    (∃ t, exec .crcInit State.reset = .next t) ∧ (∃ t, exec (.msgEncode 0x00#8) State.reset = .next t) ∧
    (∃ t, exec .msgSerialize State.reset = .next t) ∧ (∃ t, exec .msgParse State.reset = .next t) ∧
    (∃ t, exec .msgValidate (holding 0xFC#8 [] 0x2510#16) = .next t) :=
  ⟨rfl, ⟨_, rfl⟩, ⟨_, rfl⟩, ⟨_, rfl⟩, ⟨_, rfl⟩, ⟨_, rfl⟩⟩

theorem witness_BuiltMessagesValidate :
    (∃ t, exec (.msgEncode 0xFF#8) (withInput [0xFF#8]) = .next t ∧ t.err = 0#3) ∧
    (∃ t, exec .pingBuild State.reset = .next t ∧ t.err = 0#3) := ⟨⟨_, rfl, rfl⟩, ⟨_, rfl, rfl⟩⟩

theorem witness_RoundTripKeepsTheMessage : longest.length ≤ 255 := by rw [longest_length]

/-- A change of the commandId byte (j = 0), and a change of the last payload byte (j = 1). -/
theorem witness_SingleByteCorruptionIsDetected :
    ([0x01#8].length = (1#8).toNat ∧ 0 < (0xFC#8 :: [0x01#8]).length ∧ (0xFC#8 :: [0x01#8])[0]? ≠ some 0xFD#8 ∧
      0xFD#8 :: [0x01#8] = (0xFC#8 :: [0x01#8]).set 0 0xFD#8 ∧
      (let f := [0xFD#8, 1#8] ++ [0x01#8] ++ le16 (crcOf 0xFFFF#16 ([0xFC#8, 1#8] ++ [0x01#8]))
       (withInput f).inBuf.Holds 0 f ∧ 4 + (1#8).toNat ≤ (withInput f).inLen.toNat)) ∧
    ([0x01#8].length = (1#8).toNat ∧ 1 < (0xFC#8 :: [0x01#8]).length ∧ (0xFC#8 :: [0x01#8])[1]? ≠ some 0x81#8 ∧
      0xFC#8 :: [0x81#8] = (0xFC#8 :: [0x01#8]).set 1 0x81#8 ∧
      (let f := [0xFC#8, 1#8] ++ [0x81#8] ++ le16 (crcOf 0xFFFF#16 ([0xFC#8, 1#8] ++ [0x01#8]))
       (withInput f).inBuf.Holds 0 f ∧ 4 + (1#8).toNat ≤ (withInput f).inLen.toNat)) :=
  ⟨⟨rfl, by decide, by decide, rfl, (withInput_is _ (by decide)).2, by decide⟩,
   ⟨rfl, by decide, by decide, rfl, (withInput_is _ (by decide)).2, by decide⟩⟩

theorem witness_MsgEncodeFrame :
    (∃ t, exec (.msgEncode 0xFC#8) (withInput [0xAA#8]) = .next t ∧ (withInput [0xAA#8]).inLen.toNat ≤ 255) ∧
    (∃ t, exec (.msgEncode 0xFC#8) { State.reset with inLen := 256#16 } = .next t) := ⟨⟨_, rfl, by decide⟩, ⟨_, rfl⟩⟩

theorem witness_MsgSerializeFrame :
    (∃ t, exec .msgSerialize (holding 0xFC#8 [0x01#8] 0#16) = .next t) ∧
    (∃ t, exec .msgSerialize State.reset = .next t ∧ State.reset.msgp = false) := ⟨⟨_, rfl⟩, ⟨_, rfl, rfl⟩⟩

theorem witness_MsgParseFrame :
    (∃ t, exec .msgParse (withInput [0xFC#8, 0x00#8, 0x10#8, 0x25#8]) = .next t ∧
      (withInput [0xFC#8, 0x00#8, 0x10#8, 0x25#8]).inBuf.read 1 = some 0x00#8) ∧
    (∃ t, exec .msgParse (withInput [0xFC#8]) = .next t ∧ t.err ≠ 0#3) := ⟨⟨_, rfl, rfl⟩, ⟨_, rfl, by decide⟩⟩

theorem witness_MsgValidateFrame :
    (∃ t, exec .msgValidate (holding 0xFC#8 [] 0#16) = .next t) ∧
    (∃ t, exec .msgValidate State.reset = .next t ∧ State.reset.msgp = false) := ⟨⟨_, rfl⟩, ⟨_, rfl, rfl⟩⟩

theorem witness_PingIsEncodeThenSerialize :
    let p := le64 (Config.timeSource 0) ++ [1#8, 1#8]
    InputIs { State.reset with inLen := 10#16, inBuf := Memory.writeSeq [] 0 p }
      (le64 (Config.timeSource State.reset.timeDraws) ++ [State.reset.verMaj, State.reset.verMin]) :=
  ⟨rfl, Memory.holds_writeSeq [] 0 _⟩

theorem witness_PingBuildFrame : ∃ t, exec .pingBuild State.reset = .next t := ⟨_, rfl⟩

theorem witness_ErrorsChangeErrOnly :
    (∃ t, exec (.msgEncode 0#8) { State.reset with inLen := 256#16 } = .next t ∧ t.err ≠ 0#3) ∧
    (∃ t, exec .msgParse State.reset = .next t ∧ t.err ≠ 0#3) ∧
    (∃ t, exec .msgSerialize State.reset = .next t ∧ t.err ≠ 0#3) ∧
    (∃ t, exec .msgValidate State.reset = .next t ∧ t.err ≠ 0#3) :=
  ⟨⟨_, rfl, by decide⟩, ⟨_, rfl, by decide⟩, ⟨_, rfl, by decide⟩, ⟨_, rfl, by decide⟩⟩

/-- A next state exists for every command: from reset all eight complete. -/
theorem witness_EachCommandRaisesItsErrorExactlyWhenDue :
    ∀ i ∈ [Instr.crcInit, .crcFeed 0#8, .crcFeedbuf, .msgEncode 0#8, .msgSerialize, .msgParse, .msgValidate, .pingBuild],
      gives (exec i State.reset) (fun _ => true) = true := by
  decide

theorem witness_UnwrittenInputFaults :
    (let s : State := { State.reset with inLen := 4#16 }
     s.inBuf.read 0 = none ∧ 0 < s.inLen.toNat ∧ s.inLen.toNat ≤ 255 ∧ 4 ≤ s.inLen.toNat ∧ s.inBuf.read 1 = none) ∧
    (let s : State := { withInput [0xFC#8] with inLen := 4#16 }
     s.inBuf.read 1 = none ∧ (∀ j, j < 1 → s.inBuf.read j ≠ none) ∧ 1 < s.inLen.toNat ∧ 4 ≤ s.inLen.toNat) ∧
    (let s : State := { State.reset with inLen := 4#16, inBuf := [(1, 0x00#8)] }
     s.inBuf.read 0 = none ∧ 0 < s.inLen.toNat ∧ s.inBuf.read 1 = some 0x00#8 ∧ 0 < 4 + (0x00#8).toNat ∧
       4 + (0x00#8).toNat ≤ s.inLen.toNat) ∧
    (let s : State := { withInput [0xFC#8, 0x00#8, 0x10#8] with inLen := 4#16 }
     s.inBuf.read 3 = none ∧ (∀ j, j < 3 → s.inBuf.read j ≠ none) ∧ 3 < s.inLen.toNat ∧
       s.inBuf.read 1 = some 0x00#8 ∧ 3 < 4 + (0x00#8).toNat ∧ 4 + (0x00#8).toNat ≤ s.inLen.toNat) := by
  decide

theorem witness_OnlyUnwrittenInputStopsACommand :
    exec .crcFeedbuf { State.reset with inLen := 1#16 } = .fault (.unwrittenInput 0) := by rfl

theorem witness_HostOperationsCompleteAtAllTimes :
    step { pending [.regWrite 0x02#8 0x0300#16] with inLen := 1#16 } = .fault (.unwrittenInput 0) := by rfl

theorem witness_MessageIsWrittenByItsCommandsOnly :
    (∃ t, step (pending [.regWrite 0x02#8 0x1000#16]) = .next t ∧ t.msgp ≠ State.reset.msgp) ∧
    (∃ t, step { holding 0xFC#8 [] 0x2510#16 with hostOps := [.reset] } = .next t ∧
      ¬ SameMessage { holding 0xFC#8 [] 0x2510#16 with hostOps := [.reset] } t) :=
  ⟨⟨_, rfl, by decide⟩, ⟨_, rfl, fun h => absurd h.1 (by decide)⟩⟩

theorem witness_OutputIsWrittenByItsCommandsOnly :
    ∃ t, step (pending [.regWrite 0x02#8 0x2000#16]) = .next t ∧ ¬ SameOutput (pending [.regWrite 0x02#8 0x2000#16]) t :=
  ⟨_, rfl, fun h => absurd h.1 (by decide)⟩

theorem witness_NoCommandWritesItsInput : ∃ t, exec .crcFeedbuf (withInput [0x31#8]) = .next t := ⟨_, rfl⟩

theorem witness_MessageFieldsUnusedWithoutMessage :
    State.reset.msgp = false ∧ ∃ t, exec (.msgEncode 0#8) State.reset = .next t := ⟨rfl, _, rfl⟩

theorem witness_RegReadReturnsTheRegister :
    (pending [.regRead 0x09#8]).hostOps = [.regRead 0x09#8] ∧ (pending [.regRead 0x0A#8]).hostOps = [.regRead 0x0A#8] ∧
      0x0A ≤ (0x0A#8).toNat := by
  decide

theorem witness_ReadOnlyAndReservedRegistersIgnoreWrites :
    ((0x07#8 : BitVec 8) ∈ [0x00#8, 0x01#8, 0x04#8, 0x05#8, 0x06#8, 0x07#8] ∧
      (pending [.regWrite 0x07#8 1#16]).hostOps = [.regWrite 0x07#8 1#16]) ∧
    (0x0A ≤ (0xFF#8).toNat ∧ (pending [.regWrite 0xFF#8 1#16]).hostOps = [.regWrite 0xFF#8 1#16]) ∧
    (0x0A ≤ (0x0A#8).toNat ∧ (pending [.regRead 0x0A#8]).hostOps = [.regRead 0x0A#8]) := by
  decide

theorem witness_WritableRegistersTakeTheirBits :
    (pending [.regWrite 0x03#8 259#16]).hostOps = [.regWrite 0x03#8 259#16] ∧ (259#16).toNat ≤ Config.inCap ∧
    (pending [.regWrite 0x08#8 0x0102#16]).hostOps = [.regWrite 0x08#8 0x0102#16] ∧
    (pending [.regWrite 0x09#8 0xFFFF#16]).hostOps = [.regWrite 0x09#8 0xFFFF#16] :=
  ⟨rfl, Config.inCap_ge, rfl, rfl⟩

theorem witness_BufReadReturnsTheByte :
    (let s : State := { withInput [0x31#8] with hostOps := [.bufRead (.inBuf 0#16)] }
     s.hostOps = [.bufRead (.inBuf 0#16)] ∧ (0#16).toNat < Config.inCap ∧ s.inBuf.read (0#16).toNat = some 0x31#8) ∧
    (let s : State := { State.reset with outBuf := [(258, 0x42#8)], outLen := 259#16, hostOps := [.bufRead (.outBuf 258#16)] }
     s.hostOps = [.bufRead (.outBuf 258#16)] ∧ (258#16).toNat < 259 ∧ (258#16).toNat < s.outLen.toNat ∧
       s.outBuf.read (258#16).toNat = some 0x42#8) ∧
    (let s : State := { State.reset with
        msgPayload := [(254, 0x42#8)], msgLen := 255#8, msgp := true, hostOps := [.bufRead (.payload 254#8)] }
     s.hostOps = [.bufRead (.payload 254#8)] ∧ (254#8).toNat < 255 ∧ s.msgp = true ∧
       (254#8).toNat < s.msgLen.toNat ∧ s.msgPayload.read (254#8).toNat = some 0x42#8) :=
  ⟨⟨rfl, Nat.lt_of_lt_of_le (by decide) Config.inCap_ge, rfl⟩, by decide, by decide⟩

theorem witness_UnspecifiedBufReadIsADraw :
    ((258#16).toNat < Config.inCap ∧ State.reset.inBuf.read (258#16).toNat = none) ∧
    ((258#16).toNat < 259 ∧ State.reset.outLen.toNat ≤ (258#16).toNat) ∧
    ((0#8).toNat < 255 ∧ State.reset.msgp = false) ∧
    ((254#8).toNat < 255 ∧ (holding 0xFC#8 [] 0#16).msgLen.toNat ≤ (254#8).toNat) ∧
    (pending [.bufRead (.inBuf 258#16)]).hostOps = [.bufRead (.inBuf 258#16)] ∧
    (pending [.bufRead (.outBuf 258#16)]).hostOps = [.bufRead (.outBuf 258#16)] ∧
    (pending [.bufRead (.payload 0#8)]).hostOps = [.bufRead (.payload 0#8)] :=
  ⟨⟨Nat.lt_of_lt_of_le (by decide) Config.inCap_ge, rfl⟩, by decide, by decide, by decide, rfl, rfl, rfl⟩

theorem witness_AccessBeyondCapacityHasNoEffect :
    Config.inCap ≤ (65535#16).toNat ∧ 259 ≤ (259#16).toNat ∧ 255 ≤ (255#8).toNat ∧
    (pending [.bufRead (.payload 255#8)]).hostOps = [.bufRead (.payload 255#8)] ∧
    (pending [.bufWrite (.inBuf 65535#16) 0#8]).hostOps = [.bufWrite (.inBuf 65535#16) 0#8] :=
  ⟨Config.inCap_le, by decide, by decide, rfl, rfl⟩

theorem witness_BufWriteThenReadReturnsTheByte :
    (258#16).toNat < Config.inCap ∧
    (pending [.bufWrite (.inBuf 258#16) 0x42#8, .bufRead (.inBuf 258#16)]).hostOps =
      [.bufWrite (.inBuf 258#16) 0x42#8, .bufRead (.inBuf 258#16)] :=
  ⟨Nat.lt_of_lt_of_le (by decide) Config.inCap_ge, rfl⟩

theorem witness_CrcBytesEqualsLoadThenFeedbuf : [0x31#8, 0x32#8].length ≤ Config.inCap :=
  Nat.le_trans (by decide) Config.inCap_ge

theorem witness_ResetLeavesTheResetValues : (pending [.reset, .regRead 0x00#8]).hostOps = [.reset, .regRead 0x00#8] := by rfl

/-- The reset state meets R44, so it is a state from which the invariant's statements start. -/
theorem reset_commandInvariants : CommandInvariants State.reset :=
  ⟨fun _ => ⟨rfl, rfl⟩, fun h => (by cases h), fun _ => rfl, .inl rfl, Nat.zero_le _⟩

theorem witness_CommandsKeepTheFiveInvariants :
    CommandInvariants State.reset ∧ ∃ t, exec .pingBuild State.reset = .next t := ⟨reset_commandInvariants, _, rfl⟩

theorem witness_EveryStepKeepsTheInvariant :
    Inv (pending [.regWrite 0x02#8 0x2000#16]) ∧ ∃ t, step (pending [.regWrite 0x02#8 0x2000#16]) = .next t := by
  refine ⟨⟨⟨fun _ => ⟨rfl, rfl⟩, fun h => (by cases h), fun _ => rfl, .inl rfl, Nat.zero_le _⟩, ?_, ?_, ?_, ?_, ?_, ?_⟩, _, rfl⟩
  · exact ⟨.nil, fun _ h => by cases h⟩
  · exact ⟨.nil, fun _ h => by cases h⟩
  · exact ⟨.nil, fun _ h => by cases h⟩
  · exact fun h => by cases h
  · exact fun _ h => absurd h (Nat.not_lt_zero _)
  · decide

end Sys2Proof.Tests
end

section
/-! PROOFS. The state's family (10_state): the invariants of R44, the CMD register, register reads and ignored writes. -/

namespace Sys2Proof.Machine

/-! ### R44: what each update of the state keeps -/

section CommandInvariants

variable {s t : State}

/-- Where CHECKED and VALID are 0, R44 (a) to (c) hold and the two length bounds are left. -/
theorem CommandInvariants.of_unchecked (hchecked : s.checked = false) (hvalid : s.valid = false)
    (hout : s.outLen.toNat = 0 ∨ (4 ≤ s.outLen.toNat ∧ s.outLen.toNat ≤ 259))
    (hin : s.inLen.toNat ≤ Config.inCap) : CommandInvariants s where
  noMessage _ := ⟨hchecked, hvalid⟩
  checkedIsResult h := by simp [hchecked] at h
  unchecked _ := hvalid
  outLen := hout
  inLen := hin

theorem CommandInvariants.reset : CommandInvariants State.reset :=
  .of_unchecked rfl rfl (.inl rfl) (Nat.zero_le _)

theorem CommandInvariants.setErr (h : CommandInvariants s) (e : BitVec 3) : CommandInvariants (s.setErr e) :=
  ⟨h.noMessage, h.checkedIsResult, h.unchecked, h.outLen, h.inLen⟩

theorem CommandInvariants.setAcc (h : CommandInvariants s) (v : Word16) : CommandInvariants (s.setAcc v) :=
  ⟨h.noMessage, h.checkedIsResult, h.unchecked, h.outLen, h.inLen⟩

theorem CommandInvariants.setScratch (h : CommandInvariants s) (v : Word16) : CommandInvariants (s.setScratch v) :=
  ⟨h.noMessage, h.checkedIsResult, h.unchecked, h.outLen, h.inLen⟩

theorem CommandInvariants.countTimeDraw (h : CommandInvariants s) : CommandInvariants s.countTimeDraw :=
  ⟨h.noMessage, h.checkedIsResult, h.unchecked, h.outLen, h.inLen⟩

/-- A new message is unchecked, whatever CRC it holds (10_state R24). -/
theorem CommandInvariants.replaceMessage (h : CommandInvariants s) (c n : Byte) (p : List Byte) (k : Word16) :
    CommandInvariants (s.setMessage c n p k).messageReplaced :=
  .of_unchecked rfl rfl h.outLen h.inLen

theorem CommandInvariants.buildMessage (h : CommandInvariants s) (c : Byte) (p : List Byte) :
    CommandInvariants (s.buildMessage c p) :=
  (h.setScratch _).replaceMessage ..

/-- A frame is an overhead of 4 bytes and a payload of at most 255 (30_encoding R70), as R44 (d) asks of OUT_LEN. -/
theorem CommandInvariants.setFrame (h : CommandInvariants s) {f : List Byte} (hlo : 4 ≤ f.length)
    (hhi : f.length ≤ 259) : CommandInvariants (s.setFrame f) :=
  have hlen : (s.setFrame f).outLen.toNat = f.length := by
    rw [State.setFrame_outLen, BitVec.toNat_ofNat, Nat.mod_eq_of_lt (by omega)]
  ⟨h.noMessage, h.checkedIsResult, h.unchecked, .inr (hlen ▸ ⟨hlo, hhi⟩), h.inLen⟩

/-- VALID takes the result of the comparison that R44 (b) speaks of, with a message held as R44 (a) asks. -/
theorem CommandInvariants.messageChecked (h : CommandInvariants s) (hmsg : s.msgp = true) :
    CommandInvariants (s.messageChecked (messageCrc s == s.msgCrc)) where
  noMessage hno := by simp [hmsg] at hno
  checkedIsResult _ := rfl
  unchecked hno := by simp at hno
  outLen := h.outLen
  inLen := h.inLen

theorem pingFrame_length (p : List Byte) : (pingFrame p).length = p.length + 4 := frameBytes_length ..

theorem pingPayloadNow_length (s : State) : (pingPayloadNow s).length = 10 := pingPayload_length ..

/-- Every command keeps R44 (a) to (e): each meaning is a chain of the updates above. -/
theorem CommandInvariants.of_exec (h : CommandInvariants s) (i : Instr) (he : exec i s = .next t) :
    CommandInvariants t := by
  cases i with
  | crcInit => rw [exec_crcInit_next he]; exact (h.setAcc _).setErr _
  | crcFeed b => rw [exec_crcFeed_next he]; exact (h.setAcc _).setErr _
  | crcFeedbuf =>
    obtain ⟨p, -, rfl⟩ := exec_crcFeedbuf_next he
    exact (h.setAcc _).setErr _
  | msgEncode c =>
    obtain ⟨-, rfl⟩ | ⟨-, p, -, rfl⟩ := exec_msgEncode_next he
    · exact h.setErr _
    · exact (h.buildMessage c p).setErr _
  | msgSerialize =>
    obtain ⟨-, rfl⟩ | ⟨-, rfl⟩ := exec_msgSerialize_next he
    · exact h.setErr _
    · have hlen := s.msgLen.isLt
      refine (h.setFrame ?_ ?_).setErr _ <;> rw [frameBytes_length, payloadBytes_length] <;> omega
  | msgParse =>
    obtain ⟨-, rfl⟩ | ⟨-, len, -, ⟨-, rfl⟩ | ⟨-, c, p, lo, hi, -, -, -, -, -, rfl⟩⟩ := exec_msgParse_next he
    · exact h.setErr _
    · exact h.setErr _
    · exact (h.replaceMessage c len p _).setErr _
  | msgValidate =>
    obtain ⟨-, rfl⟩ | ⟨hmsg, rfl⟩ := exec_msgValidate_next he
    · exact h.setErr _
    · exact ((h.setScratch (messageCrc s)).messageChecked hmsg).setErr errOk
  | pingBuild =>
    rw [exec_pingBuild_next he]
    refine ((h.countTimeDraw.buildMessage _ _).setFrame ?_ ?_).setErr _ <;>
      rw [pingFrame_length, pingPayloadNow_length] <;> omega

end CommandInvariants

/-- Settles O59: the reset state is unchecked with both lengths 0, and every command keeps R44. -/
theorem commandsKeepTheFiveInvariants : Obligations.CommandsKeepTheFiveInvariants :=
  ⟨.reset, fun i _ _ h he => h.of_exec i he⟩

/-! ### R26: who writes CMD -/

section CmdRegister

variable {s t : State} {w : Word16} {rest : List HostOp}

/-- No command touches CMD, the version registers or the host's side of the state. -/
theorem exec_sameSurroundings {i : Instr} (he : exec i s = .next t) : SameSurroundings s t := by
  cases i with
  | crcInit => simp [SameSurroundings, exec_crcInit_next he]
  | crcFeed b => simp [SameSurroundings, exec_crcFeed_next he]
  | crcFeedbuf =>
    obtain ⟨p, -, rfl⟩ := exec_crcFeedbuf_next he
    simp [SameSurroundings]
  | msgEncode c => obtain ⟨-, rfl⟩ | ⟨-, p, -, rfl⟩ := exec_msgEncode_next he <;> simp [SameSurroundings]
  | msgSerialize => obtain ⟨-, rfl⟩ | ⟨-, rfl⟩ := exec_msgSerialize_next he <;> simp [SameSurroundings]
  | msgParse =>
    obtain ⟨-, rfl⟩ | ⟨-, len, -, ⟨-, rfl⟩ | ⟨-, c, p, lo, hi, -, -, -, -, -, rfl⟩⟩ := exec_msgParse_next he <;>
      simp [SameSurroundings]
  | msgValidate => obtain ⟨-, rfl⟩ | ⟨-, rfl⟩ := exec_msgValidate_next he <;> simp [SameSurroundings]
  | pingBuild => simp [SameSurroundings, exec_pingBuild_next he]

theorem exec_cmd {i : Instr} (he : exec i s = .next t) : t.cmd = s.cmd := (exec_sameSurroundings he).1

theorem regWrite_cmd (w : Word16) (s : State) : regWrite regCmd w s = issueCommand w s := if_pos rfl

theorem issueCommand_of_decode {i : Instr} (hi : decodeWord w = .ok i) :
    issueCommand w s = exec i (s.setCmd w) := by
  simp only [issueCommand, hi]

/-- After a word was issued CMD holds it, a legal command or not. -/
theorem issueCommand_cmd (h : issueCommand w s = .next t) : t.cmd = w := by
  obtain ⟨i, -, he⟩ | ⟨e, -, rfl⟩ := issueCommand_next h
  · exact exec_cmd he
  · rfl

/-- A step that takes a host write to CMD issues the word. -/
theorem step_regWrite_cmd (h : s.hostOps = .regWrite regCmd w :: rest) :
    step s = issueCommand w (s.accept rest) :=
  (step_cons h).trans (regWrite_cmd ..)

/-- Every host operation but Reset and a write to CMD leaves CMD alone. -/
theorem hostOp_cmd {op : HostOp} (h : hostOp op s = .next t) :
    t.cmd = s.cmd ∨ op = .reset ∨ ∃ w, op = .regWrite regCmd w := by
  cases op with
  | regRead n => cases h; exact .inl rfl
  | regWrite n v =>
    obtain ⟨rfl, -⟩ | ⟨-, -, rfl⟩ | ⟨-, rfl⟩ | ⟨-, rfl⟩ | rfl := regWrite_next h
    · exact .inr (.inr ⟨v, rfl⟩)
    all_goals exact .inl rfl
  | bufRead a =>
    cases h
    obtain ⟨b, -, heq⟩ | ⟨-, heq⟩ := bufRead_cases a s <;> simp [heq]
  | bufWrite a b =>
    cases h
    obtain ⟨i, -, -, heq⟩ | heq := bufWrite_cases a b s <;> simp [heq]
  | reset => exact .inr (.inl rfl)

/-- A step that changes CMD took a Reset or a write to CMD. -/
theorem step_changes_cmd (h : step s = .next t) (hne : t.cmd ≠ s.cmd) :
    (∃ rest, s.hostOps = .reset :: rest) ∨ ∃ w rest, s.hostOps = .regWrite regCmd w :: rest := by
  obtain ⟨-, rfl⟩ | ⟨op, rest, hops, hop⟩ := step_next h
  · exact absurd rfl hne
  · obtain hcmd | rfl | ⟨w, rfl⟩ := hostOp_cmd hop
    · exact absurd hcmd hne
    · exact .inl ⟨rest, hops⟩
    · exact .inr ⟨w, rest, hops⟩

end CmdRegister

/-! ### R40 to R43: reads of registers and ignored writes -/

section Registers

variable {s : State} {n : BitVec 8} {rest : List HostOp}

/-- A register read answers the register's value and changes nothing of the block (10_state R43). -/
theorem step_regRead (h : s.hostOps = .regRead n :: rest) :
    step s = .next { s with hostOps := rest, reply := .register (regValue n s) } :=
  step_cons h

/-- A reserved number is none of the ten registers' numbers, so it reads 0 (10_state R20, R41). -/
theorem regValue_reserved (hn : 0x0A ≤ n.toNat) (s : State) : regValue n s = 0x0000#16 := by
  have hne (m : BitVec 8) (hm : m.toNat < 0x0A) : n ≠ m := by rintro rfl; omega
  simp (disch := decide) only [regValue, hne, if_false]

/-- A write to a number that is none of the four writable registers is ignored (10_state R41, R42). -/
theorem regWrite_ignored (hcmd : n ≠ regCmd) (hin : n ≠ regInLen) (hmaj : n ≠ regVerMaj) (hmin : n ≠ regVerMin)
    (v : Word16) (s : State) : regWrite n v s = .next s := by
  simp only [regWrite, if_neg hcmd, if_neg hin, if_neg hmaj, if_neg hmin]

end Registers

/-- Settles O7: a write to CMD issues the word, no command touches CMD, and of the other host operations only Reset does. -/
theorem cmdHoldsTheLastWordWritten : Obligations.CmdHoldsTheLastWordWritten := by
  refine ⟨fun s t w rest h => ⟨fun i hi => ?_, fun ht => ?_⟩, fun s t => step_changes_cmd, fun s rest => step_regRead,
    rfl, fun s rest h => ⟨hostReset (s.accept rest), step_cons h, rfl, rfl⟩⟩
  · exact (step_regWrite_cmd h).trans (issueCommand_of_decode hi)
  · exact issueCommand_cmd ((step_regWrite_cmd h).symm.trans ht)

/-- Settles O50: the six read-only numbers and the reserved ones are none of the four that `regWrite` serves, and the
reserved ones none of the ten that `regValue` serves. -/
theorem readOnlyAndReservedRegistersIgnoreWrites : Obligations.ReadOnlyAndReservedRegistersIgnoreWrites := by
  refine fun s n v rest => ⟨fun hn h => (step_cons h).trans ?_, fun hn h => ?_⟩
  · apply regWrite_ignored <;> rintro rfl <;> exact absurd hn (by decide)
  · rw [step_regRead h, regValue_reserved hn]

/-- Settles O49: the value is `regValue`, register by register; a zero-extended byte keeps its number. -/
theorem regReadReturnsTheRegister : Obligations.RegReadReturnsTheRegister := by
  intro s n rest h
  have hbyte (b : Byte) : (b.setWidth 16).toNat = b.toNat := BitVec.toNat_setWidth_of_le (by decide)
  refine ⟨regValue n s, step_regRead h, ?_, ?_, ?_, ?_, ?_, ?_, ?_, ?_, ?_, ?_, fun hn => regValue_reserved hn s⟩ <;>
    rintro rfl
  · rfl
  · exact hbyte _
  · rfl
  · rfl
  · rfl
  · exact hbyte _
  · exact hbyte _
  · rfl
  · exact hbyte _
  · exact hbyte _

end Sys2Proof.Machine
end

section
/-! PROOFS. The memory's family (20_memory): host accesses beyond a buffer's capacity and writes that no buffer takes. -/

namespace Sys2Proof.Machine

/-! ### R60: what a host access beyond the capacity does -/

section BeyondCapacity

variable {s : State} {a : BufIndex} {b : Byte} {rest : List HostOp}

theorem bufByte_inBuf_of_cap_le {i : BitVec 16} (hi : Config.inCap ≤ i.toNat) (s : State) :
    bufByte (.inBuf i) s = some 0x00#8 := by
  simp only [bufByte, Nat.not_lt.mpr hi, if_false]

theorem bufByte_outBuf_of_cap_le {i : BitVec 16} (hi : outCap ≤ i.toNat) (s : State) :
    bufByte (.outBuf i) s = some 0x00#8 :=
  if_neg (Nat.not_lt.mpr hi)

theorem bufByte_payload_of_cap_le {i : BitVec 8} (hi : payloadCap ≤ i.toNat) (s : State) :
    bufByte (.payload i) s = some 0x00#8 :=
  if_neg (Nat.not_lt.mpr hi)

theorem bufWrite_inBuf_of_cap_le {i : BitVec 16} (hi : Config.inCap ≤ i.toNat) (b : Byte) (s : State) :
    bufWrite (.inBuf i) b s = s := by
  simp only [bufWrite, Nat.not_lt.mpr hi, if_false]

theorem bufRead_of_bufByte (hb : bufByte a s = some b) : bufRead a s = s.setReply (.byte b) := by
  simp only [bufRead, hb]

/-- A host read of a byte the spec gives answers it, with no draw and nothing of the block changed (20_memory R63). -/
theorem step_bufRead_of_bufByte (h : s.hostOps = .bufRead a :: rest) (hb : bufByte a (s.accept rest) = some b) :
    step s = .next { s with hostOps := rest, reply := .byte b } :=
  (step_cons h).trans (congrArg Host.Outcome.next (bufRead_of_bufByte hb))

/-- A host write that no buffer takes is taken off the pending operations and changes nothing of the block. -/
theorem step_bufWrite_ignored (h : s.hostOps = .bufWrite a b :: rest)
    (hw : bufWrite a b (s.accept rest) = s.accept rest) :
    step s = .next { s with hostOps := rest, reply := .nothing } :=
  (step_cons h).trans (congrArg Host.Outcome.next hw)

end BeyondCapacity

/-- Settles O54, buffer by buffer: at or beyond the capacity the byte read is 0, and only IN_BUF below IN_CAP takes a
host write. -/
theorem accessBeyondCapacityHasNoEffect : Obligations.AccessBeyondCapacityHasNoEffect := by
  refine fun s a b rest => ⟨fun hcap h => step_bufRead_of_bufByte h ?_, fun hcap h => step_bufWrite_ignored h ?_⟩
  · cases a with
    | inBuf i => exact bufByte_inBuf_of_cap_le hcap _
    | outBuf i => exact bufByte_outBuf_of_cap_le hcap _
    | payload i => exact bufByte_payload_of_cap_le hcap _
  · cases a with
    | inBuf i => exact bufWrite_inBuf_of_cap_le hcap b _
    | outBuf i => rfl
    | payload i => rfl

end Sys2Proof.Machine
end

section
/-! PROOFS. The encoding's family (30_encoding): which words a row of the opcode table covers, which words decode to a
command, and what an illegal word does. -/

namespace Sys2Proof

/-- The operation codes of the opcode table (30_encoding R74, column OP). -/
def knownOps : List Byte := [0x01#8, 0x02#8, 0x03#8, 0x10#8, 0x11#8, 0x12#8, 0x13#8, 0x20#8]

/-- The operation codes that require IMM8 = 0x00 (30_encoding R73). -/
def noOperandOps : List Byte := [0x01#8, 0x03#8, 0x11#8, 0x12#8, 0x13#8, 0x20#8]

variable {w : Word16} {r q : OpcodeRow}

/-! ### R74: the rows of the opcode table, field by field -/

/-- A word is made of its two fields (30_encoding R72). -/
theorem commandWord_fields (w : Word16) : commandWord (opField w) (immField w) = w :=
  (BitVec.extractLsb'_append_extractLsb'_eq_extractLsb' (by decide)).trans BitVec.extractLsb'_eq_self

theorem eq_iff_fields {v : Word16} : v = w ↔ opField v = opField w ∧ immField v = immField w := by
  refine ⟨fun h => h ▸ ⟨rfl, rfl⟩, fun ⟨hop, himm⟩ => ?_⟩
  rw [← commandWord_fields v, hop, himm, commandWord_fields]

/-- A row compares OP and IMM8 apart, each under its part of the mask. -/
theorem OpcodeRow.covers_iff_fields : r.covers w = true ↔
    opField w &&& opField r.mask = opField r.pattern ∧ immField w &&& immField r.mask = immField r.pattern := by
  rw [OpcodeRow.covers, beq_iff_eq, eq_iff_fields]
  simp only [opField, immField, BitVec.extractLsb'_and]

/-- Every row compares all of OP, and IMM8 with 0x00 exactly where its command takes no operand (30_encoding R73). -/
theorem opcodeTable_fields : ∀ r ∈ opcodeTable, opField r.mask = BitVec.allOnes 8 ∧ immField r.pattern = 0x00#8 ∧
    immField r.mask = if opField r.pattern ∈ noOperandOps then BitVec.allOnes 8 else 0x00#8 := by
  decide

/-- A row of the table covers the words with its OP, and of these the ones with IMM8 = 0x00 where it takes no operand. -/
theorem OpcodeRow.covers_iff_of_mem (hr : r ∈ opcodeTable) :
    r.covers w = true ↔ opField w = opField r.pattern ∧ (opField w ∈ noOperandOps → immField w = 0x00#8) := by
  obtain ⟨hop, hpat, hmask⟩ := opcodeTable_fields r hr
  rw [covers_iff_fields, hop, hpat, hmask, BitVec.and_allOnes]
  refine and_congr_right fun h => ?_
  rw [h]
  by_cases hmem : opField r.pattern ∈ noOperandOps
  · rw [if_pos hmem, BitVec.and_allOnes, imp_iff_right hmem]
  · simp [hmem]

/-- No two rows have the same OP, so no word belongs to two rows. -/
theorem OpcodeRow.eq_of_covers (hr : r ∈ opcodeTable) (hq : q ∈ opcodeTable)
    (hrw : r.covers w = true) (hqw : q.covers w = true) : r = q := by
  have hdistinct : ∀ r ∈ opcodeTable, ∀ q ∈ opcodeTable, opField r.pattern = opField q.pattern → r = q := by decide
  exact hdistinct r hr q hq (((covers_iff_of_mem hr).1 hrw).1.symm.trans ((covers_iff_of_mem hq).1 hqw).1)

/-! ### R75: the legal words -/

/-- The words of the opcode table's rows, by their fields. -/
theorem wellFormedWord_iff : wellFormedWord w = true ↔
    opField w ∈ knownOps ∧ (opField w ∈ noOperandOps → immField w = 0x00#8) := by
  have hcolumn : knownOps = opcodeTable.map fun r => opField r.pattern := by decide
  simp only [wellFormedWord, List.any_eq_true, hcolumn, List.mem_map]
  constructor
  · rintro ⟨r, hr, hcov⟩
    obtain ⟨hop, himm⟩ := (OpcodeRow.covers_iff_of_mem hr).1 hcov
    exact ⟨⟨r, hr, hop.symm⟩, himm⟩
  · rintro ⟨⟨r, hr, hop⟩, himm⟩
    exact ⟨r, hr, (OpcodeRow.covers_iff_of_mem hr).2 ⟨hop.symm, himm⟩⟩

theorem noOperand_isOk_iff {op imm : Byte} {i : Instr} : (∃ j, noOperand op imm i = .ok j) ↔ imm = 0x00#8 := by
  rw [noOperand]
  split <;> simp [*]

/-- The decode function answers a command for the words of the opcode table's rows, branch by branch (30_encoding R76). -/
theorem decodeWord_isOk_iff : (∃ i, decodeWord w = .ok i) ↔ wellFormedWord w = true := by
  rw [wellFormedWord_iff, decodeWord]
  split_ifs <;> simp [*, knownOps, noOperandOps, noOperand_isOk_iff]

theorem decodeWord_error_of_illegal (h : wellFormedWord w = false) : ∃ e, decodeWord w = .error e := by
  cases hdec : decodeWord w with
  | error e => exact ⟨e, rfl⟩
  | ok i => simp [decodeWord_isOk_iff.1 ⟨i, hdec⟩] at h

end Sys2Proof

namespace Sys2Proof.Machine

/-- A step that takes a host write of an illegal word to CMD stores the word and writes ILLEGAL_COMMAND, and that is all
(60_exceptions R164). -/
theorem step_illegalWord {s : State} {w : Word16} {rest : List HostOp} {e : DecodeError}
    (h : s.hostOps = .regWrite regCmd w :: rest) (he : decodeWord w = .error e) :
    step s = .next { s with hostOps := rest, reply := .nothing, cmd := w, err := errIllegalCommand } := by
  rw [step_regWrite_cmd h, issueCommand, he]
  rfl

/-- Settles O3: rows and decoder both sort the words by OP and, where there is no operand, by IMM8. -/
theorem everyWordIsOneRowOrIllegal : Obligations.EveryWordIsOneRowOrIllegal := by
  refine fun w => ⟨decodeWord_isOk_iff.2, fun r hr q hq => OpcodeRow.eq_of_covers hr hq, fun hw => ?_, ?_⟩
  · obtain ⟨e, he⟩ := decodeWord_error_of_illegal hw
    exact ⟨⟨e, he⟩, fun s rest h => step_illegalWord h he⟩
  · rw [← Bool.not_eq_true, wellFormedWord_iff, not_and_or, Classical.not_imp]
    rfl

end Sys2Proof.Machine
end

section
/-! PROOFS. The CRC Engine's family (40_crc): the step as the formula of R101, feeding in parts, the zero residue, and who
writes ACC. -/

namespace Sys2Proof.Machine

/-! ### R101: the step on unbounded naturals -/

section CrcStepFormula

variable {n : Nat}

/-- The mask 0xFF keeps the low byte (40_crc R101). -/
theorem and_byteMask (n : Nat) : n &&& 0xFF = n % 2 ^ 8 := Nat.and_two_pow_sub_one_eq_mod n 8

theorem and_byteMask_of_lt (hn : n < 2 ^ 8) : n &&& 0xFF = n := by rw [and_byteMask, Nat.mod_eq_of_lt hn]

theorem and_byteMask_le (n : Nat) : n &&& 0xFF ≤ 0xFF := Nat.and_le_right

/-- A byte moved up by k bits stays within the byte mask moved up by k bits. -/
theorem shiftLeft_and_byteMask (hn : n < 2 ^ 8) (k : Nat) : (n <<< k) &&& (0xFF <<< k) = n <<< k := by
  rw [← Nat.shiftLeft_and_distrib, and_byteMask_of_lt hn]

/-- The first line of the step, `tmp = byte ^ (state & 0xFF)`, on 8 bits. -/
def crcMix (s : Word16) (b : Byte) : Byte := b ^^^ s.setWidth 8

/-- The second line of the step, `tmp = tmp ^ (tmp << 4)`, on 8 bits. -/
def crcFold (x : Byte) : Byte := x ^^^ (x <<< 4)

/-- The last line of the step, of the tmp that its first two lines leave. -/
theorem crcStep_eq (s : Word16) (b : Byte) :
    crcStep s b = (s >>> 8) ^^^ ((crcFold (crcMix s b)).setWidth 16 <<< 8) ^^^
      ((crcFold (crcMix s b)).setWidth 16 <<< 3) ^^^ ((crcFold (crcMix s b)).setWidth 16 >>> 4) := rfl

theorem crcMix_toNat (s : Word16) (b : Byte) : (crcMix s b).toNat = (b.toNat &&& 0xFF) ^^^ (s.toNat &&& 0xFF) := by
  rw [and_byteMask_of_lt b.isLt, and_byteMask, crcMix, BitVec.toNat_xor, BitVec.toNat_setWidth]

theorem crcFold_toNat (x : Byte) : (crcFold x).toNat = x.toNat ^^^ ((x.toNat <<< 4) &&& 0xFF) := by
  rw [and_byteMask, crcFold, BitVec.toNat_xor, BitVec.toNat_shiftLeft]

/-- Widened to 16 bits, a byte is shifted left by at most 8 without losing a bit (40_crc R101). -/
theorem toNat_setWidth_shiftLeft (x : Byte) {k : Nat} (hk : k ≤ 8) :
    (x.setWidth 16 <<< k).toNat = x.toNat <<< k := by
  have hx : x.toNat <<< k < 2 ^ 16 := by
    rw [Nat.shiftLeft_eq]
    calc x.toNat * 2 ^ k < 2 ^ 8 * 2 ^ k := Nat.mul_lt_mul_of_pos_right x.isLt (Nat.two_pow_pos k)
      _ ≤ 2 ^ 8 * 2 ^ 8 := Nat.mul_le_mul_left _ (Nat.pow_le_pow_right (by decide) hk)
  rw [BitVec.toNat_shiftLeft, BitVec.toNat_setWidth_of_le (by decide), Nat.mod_eq_of_lt hx]

/-- Shifted right until at most 8 bits are left, a word is a byte, so the byte mask takes nothing from it. -/
theorem toNat_ushiftRight_and_byteMask {w : Nat} (x : BitVec w) {k : Nat} (hk : w ≤ 8 + k) :
    (x.toNat >>> k) &&& 0xFF = x.toNat >>> k := by
  refine and_byteMask_of_lt ?_
  rw [Nat.shiftRight_eq_div_pow, Nat.div_lt_iff_lt_mul (Nat.two_pow_pos k), ← Nat.pow_add]
  exact Nat.lt_of_lt_of_le x.isLt (Nat.pow_le_pow_right (by decide) hk)

/-- The 16-bit step is the exclusive or of the formula's four terms, of which none loses a bit (40_crc R101). -/
theorem crcStep_toNat (s : Word16) (b : Byte) :
    (crcStep s b).toNat =
      ((s.toNat >>> 8) &&& 0xFF) ^^^ ((crcFold (crcMix s b)).toNat <<< 8) ^^^
        ((crcFold (crcMix s b)).toNat <<< 3) ^^^ (((crcFold (crcMix s b)).toNat >>> 4) &&& 0xFF) := by
  rw [crcStep_eq, BitVec.toNat_xor, BitVec.toNat_xor, BitVec.toNat_xor, BitVec.toNat_ushiftRight,
    BitVec.toNat_ushiftRight, toNat_setWidth_shiftLeft _ (by decide), toNat_setWidth_shiftLeft _ (by decide),
    BitVec.toNat_setWidth_of_le (by decide), toNat_ushiftRight_and_byteMask s (by decide),
    toNat_ushiftRight_and_byteMask (crcFold (crcMix s b)) (by decide)]

end CrcStepFormula

/-- Settles O9: the two values of tmp are the bytes `crcMix` and `crcFold`, and the result is the 16-bit `crcStep`. -/
theorem crcStepIsTheSourceFormula : Obligations.CrcStepIsTheSourceFormula := by
  intro s b
  dsimp only
  rw [← crcMix_toNat, ← crcFold_toNat, ← crcStep_toNat]
  have hfold := (crcFold (crcMix s b)).isLt
  exact ⟨Nat.le_of_lt_succ (crcMix s b).isLt, Nat.le_of_lt_succ hfold, shiftLeft_and_byteMask hfold 8,
    shiftLeft_and_byteMask hfold 3, and_byteMask_le _, and_byteMask_le _, (crcStep s b).isLt, rfl⟩

/-! ### R107: feeding in parts -/

section Feeding

variable {s : State} {p : List Byte}

theorem crcOf_append (v : Word16) (p q : List Byte) : crcOf v (p ++ q) = crcOf (crcOf v p) q := List.foldl_append

/-- CRC_FEEDBUF of a written input sequence folds it into ACC (40_crc R105). -/
theorem exec_crcFeedbuf_of_inputIs (h : InputIs s p) :
    exec .crcFeedbuf s = .next ((s.setAcc (crcOf s.acc p)).setErr errOk) := by
  simp only [exec, execCrcFeedbuf, h.readInput]

theorem decodeWord_encode_crcFeed (b : Byte) : decodeWord (encode (.crcFeed b)) = .ok (.crcFeed b) := by
  obtain ⟨hop, himm, -⟩ := Laws.WordFields.crcFeed b
  rw [decodeWord, hop, himm]
  exact if_pos rfl

/-- The statement `crc.feed` stores its word in CMD and feeds its byte (30_encoding R77, 40_crc R104). -/
theorem hostOp_crcFeed (b : Byte) (s : State) :
    hostOp (commandOp (.crcFeed b)) s =
      .next (((s.setCmd (encode (.crcFeed b))).setAcc (crcStep s.acc b)).setErr errOk) :=
  (regWrite_cmd ..).trans (issueCommand_of_decode (decodeWord_encode_crcFeed b))

/-- Feeding a sequence byte by byte folds it into ACC. -/
theorem runHostOps_crcBytesOps (p : List Byte) (s : State) :
    ∃ t, runHostOps (crcBytesOps p) s = .next t ∧ t.acc = crcOf s.acc p := by
  induction p generalizing s with
  | nil => exact ⟨s, rfl, rfl⟩
  | cons b p ih =>
    simp only [crcBytesOps, List.map_cons, runHostOps, hostOp_crcFeed]
    exact ih _

end Feeding

/-- Settles O11: every way of feeding leaves the fold of the bytes in ACC, and the fold of a whole is that of its parts. -/
theorem crcFeedingIsCompositional : Obligations.CrcFeedingIsCompositional := by
  refine ⟨crcOf_nil, crcOf_append, fun s s1 s2 a b h h1 h2 hacc => ?_, fun s s1 a h hacc => ?_⟩
  · refine ⟨_, _, exec_crcFeedbuf_of_inputIs h, exec_crcFeedbuf_of_inputIs h1, fun hacc2 =>
      ⟨_, exec_crcFeedbuf_of_inputIs h2, ?_⟩⟩
    simp only [State.setErr_acc, State.setAcc_acc] at hacc2 ⊢
    rw [hacc2, hacc, crcOf_append]
  · obtain ⟨t1, hrun, ht1⟩ := runHostOps_crcBytesOps a s1
    exact ⟨_, t1, exec_crcFeedbuf_of_inputIs h, hrun, ht1.trans (by rw [hacc]; rfl)⟩

/-! ### R108: the zero residue -/

/-- The high byte, widened, is the word shifted right by 8. -/
theorem setWidth_highByte (v : Word16) : (v.extractLsb' 8 8).setWidth 16 = v >>> 8 := by
  apply BitVec.eq_of_toNat_eq
  rw [BitVec.toNat_setWidth_of_le (by decide), BitVec.extractLsb'_toNat, BitVec.toNat_ushiftRight, ← and_byteMask]
  exact toNat_ushiftRight_and_byteMask v (by decide)

theorem lowByte_setWidth (x : Byte) : (x.setWidth 16).extractLsb' 0 8 = x :=
  (BitVec.extractLsb'_setWidth_of_le (by decide)).trans BitVec.extractLsb'_eq_self

/-- Feeding a state its own low byte makes tmp 0 and leaves the state's high byte (40_crc R108). -/
theorem crcStep_lowByte (v : Word16) : crcStep v (v.extractLsb' 0 8) = (v.extractLsb' 8 8).setWidth 16 := by
  have hmix : crcMix v (v.extractLsb' 0 8) = 0#8 := by
    rw [crcMix, BitVec.setWidth_eq_extractLsb' (by decide), BitVec.xor_self]
  have hfold : crcFold 0#8 = 0#8 := by decide
  rw [crcStep_eq, hmix, hfold, setWidth_highByte]
  simp

/-- The high byte left is the low byte of the state it makes, whose own high byte is 0 (40_crc R108). -/
theorem crcStep_lowByte_highByte (v : Word16) :
    crcStep (crcStep v (v.extractLsb' 0 8)) (v.extractLsb' 8 8) = 0x0000#16 := by
  generalize hx : v.extractLsb' 8 8 = x
  have hstep := crcStep_lowByte (x.setWidth 16)
  rw [lowByte_setWidth, setWidth_highByte] at hstep
  rw [crcStep_lowByte, hx, hstep]
  bv_omega

/-- Any sequence followed by its own CRC, low byte first, leaves 0 (40_crc R108). -/
theorem crcOf_append_le16 (v : Word16) (p : List Byte) : crcOf v (p ++ le16 (crcOf v p)) = 0x0000#16 := by
  rw [crcOf_append]
  exact crcStep_lowByte_highByte _

/-- Settles O12: the first of the two facts makes tmp 0, the second applies it again, and a frame is its covered bytes
followed by their CRC. -/
theorem validFrameLeavesZeroResidue : Obligations.ValidFrameLeavesZeroResidue := by
  refine ⟨crcOf_append_le16 _, fun v => ⟨crcStep_lowByte v, crcStep_lowByte_highByte v⟩, fun s c len p _ h => ?_⟩
  refine ⟨(s.setAcc crcInitial).setErr errOk, _, rfl, exec_crcFeedbuf_of_inputIs h, ?_⟩
  exact crcOf_append_le16 crcInitial ([c, len] ++ p)

/-! ### R106: who writes ACC -/

section AccRegister

variable {s t : State}

/-- The three commands that write ACC (40_crc R106). -/
def IsCrcCommand (i : Instr) : Prop := i = .crcInit ∨ (∃ b, i = .crcFeed b) ∨ i = .crcFeedbuf

/-- A command that is none of the three leaves ACC alone. -/
theorem exec_acc {i : Instr} (he : exec i s = .next t) : t.acc = s.acc ∨ IsCrcCommand i := by
  cases i with
  | crcInit => exact .inr (.inl rfl)
  | crcFeed b => exact .inr (.inr (.inl ⟨b, rfl⟩))
  | crcFeedbuf => exact .inr (.inr (.inr rfl))
  | msgEncode c => obtain ⟨-, rfl⟩ | ⟨-, p, -, rfl⟩ := exec_msgEncode_next he <;> simp
  | msgSerialize => obtain ⟨-, rfl⟩ | ⟨-, rfl⟩ := exec_msgSerialize_next he <;> simp
  | msgParse =>
    obtain ⟨-, rfl⟩ | ⟨-, len, -, ⟨-, rfl⟩ | ⟨-, c, p, lo, hi, -, -, -, -, -, rfl⟩⟩ := exec_msgParse_next he <;>
      simp
  | msgValidate => obtain ⟨-, rfl⟩ | ⟨-, rfl⟩ := exec_msgValidate_next he <;> simp
  | pingBuild => simp [exec_pingBuild_next he]

/-- Issuing a word that decodes to none of the three leaves ACC alone. -/
theorem issueCommand_acc {w : Word16} (h : issueCommand w s = .next t) :
    t.acc = s.acc ∨ ∃ i, decodeWord w = .ok i ∧ IsCrcCommand i := by
  obtain ⟨i, hi, he⟩ | ⟨e, -, rfl⟩ := issueCommand_next h
  · exact (exec_acc he).imp_right fun hcrc => ⟨i, hi, hcrc⟩
  · exact .inl rfl

/-- Every host operation but Reset and a write of one of the three to CMD leaves ACC alone. -/
theorem hostOp_acc {op : HostOp} (h : hostOp op s = .next t) :
    t.acc = s.acc ∨ op = .reset ∨
      ∃ w i, op = .regWrite regCmd w ∧ decodeWord w = .ok i ∧ IsCrcCommand i := by
  cases op with
  | regRead n => cases h; exact .inl rfl
  | regWrite n v =>
    obtain ⟨rfl, hissue⟩ | ⟨-, -, rfl⟩ | ⟨-, rfl⟩ | ⟨-, rfl⟩ | rfl := regWrite_next h
    · exact (issueCommand_acc hissue).imp_right fun ⟨i, hi, hcrc⟩ => .inr ⟨v, i, rfl, hi, hcrc⟩
    all_goals exact .inl rfl
  | bufRead a =>
    cases h
    obtain ⟨b, -, heq⟩ | ⟨-, heq⟩ := bufRead_cases a s <;> simp [heq]
  | bufWrite a b =>
    cases h
    obtain ⟨i, -, -, heq⟩ | heq := bufWrite_cases a b s <;> simp [heq]
  | reset => exact .inr (.inl rfl)

/-- A step that changes ACC took a Reset or a write of one of the three commands to CMD. -/
theorem step_changes_acc (h : step s = .next t) (hne : t.acc ≠ s.acc) :
    (∃ rest, s.hostOps = .reset :: rest) ∨
      ∃ w rest i, s.hostOps = .regWrite regCmd w :: rest ∧ decodeWord w = .ok i ∧ IsCrcCommand i := by
  obtain ⟨-, rfl⟩ | ⟨op, rest, hops, hop⟩ := step_next h
  · exact absurd rfl hne
  · obtain hacc | rfl | ⟨w, i, rfl, hi, hcrc⟩ := hostOp_acc hop
    · exact absurd hacc hne
    · exact .inl ⟨rest, hops⟩
    · exact .inr ⟨w, rest, i, hops, hi, hcrc⟩

end AccRegister

/-- Settles O15: a read of ACC is a register read, and of the commands only the three of the CRC Engine write ACC. -/
theorem accChangesByCrcCommandsOnly : Obligations.AccChangesByCrcCommandsOnly :=
  ⟨fun _ _ => step_regRead, fun _ _ => step_changes_acc⟩

end Sys2Proof.Machine
end

section
/-! PROOFS. The Message Codec's family (41_codec): what each codec command does where it succeeds, the host's loads and
copies of IN_BUF, and the round trip. -/

namespace Sys2Proof.Machine

/-! ### R120 to R131: the codec commands where they complete, and where they raise an error -/

section CodecCommands

variable {s t : State} {c n : Byte} {p : List Byte} {k : Word16}

/-- MSG_ENCODE of a written input sequence of at most 255 bytes builds the message (41_codec R120). -/
theorem exec_msgEncode_of_inputIs (h : InputIs s p) (hp : p.length ≤ 255) (c : Byte) :
    exec (.msgEncode c) s = .next ((s.buildMessage c p).setErr errOk) := by
  have hlen : ¬ 255 < s.inLen.toNat := by rw [h.1]; omega
  simp only [exec, execMsgEncode, if_neg hlen, h.readInput]

theorem exec_msgEncode_tooLarge (h : 255 < s.inLen.toNat) (c : Byte) :
    exec (.msgEncode c) s = .next (s.setErr errPayloadTooLarge) :=
  if_pos h

/-- MSG_SERIALIZE of a held message writes its frame with the CRC as held (41_codec R123, R125). -/
theorem exec_msgSerialize_of_msgp (h : s.msgp = true) :
    exec .msgSerialize s =
      .next ((s.setFrame (frameBytes s.msgCmd s.msgLen (payloadBytes s) s.msgCrc)).setErr errOk) :=
  if_neg (by simp [h])

theorem exec_msgSerialize_noMessage (h : s.msgp = false) : exec .msgSerialize s = .next (s.setErr errNoMessage) :=
  if_pos h

/-- MSG_VALIDATE of a held message compares its CRC with the recomputed one (41_codec R129). -/
theorem exec_msgValidate_of_msgp (h : s.msgp = true) :
    exec .msgValidate s =
      .next (((s.setScratch (messageCrc s)).messageChecked (messageCrc s == s.msgCrc)).setErr errOk) :=
  if_neg (by simp [h])

theorem exec_msgValidate_noMessage (h : s.msgp = false) : exec .msgValidate s = .next (s.setErr errNoMessage) :=
  if_pos h

/-- A buffer holds a frame where it holds the frame's parts, each at its place (30_encoding R70). -/
theorem Memory.holds_frameBytes {m : Memory} (hp : p.length = n.toNat) : m.Holds 0 (frameBytes c n p k) ↔
    m.read 0 = some c ∧ m.read 1 = some n ∧ m.Holds 2 p ∧
      m.read (2 + n.toNat) = some (k.extractLsb' 0 8) ∧ m.read (3 + n.toNat) = some (k.extractLsb' 8 8) := by
  have hcrc : 0 + (crcCovered c n p).length = 2 + n.toNat := by rw [crcCovered_length, hp]; omega
  rw [frameBytes, holds_append, hcrc, crcCovered, le16]
  simp only [holds_cons, holds_nil, and_true, and_assoc, Nat.zero_add, Nat.reduceAdd,
    show 2 + n.toNat + 1 = 3 + n.toNat by omega]

/-- MSG_PARSE of a frame that fits in IN_LEN takes the frame's fields verbatim, its CRC right or wrong (41_codec R126). -/
theorem exec_msgParse_of_frame (hp : p.length = n.toNat) (h : s.inBuf.Holds 0 (frameBytes c n p k))
    (hfit : 4 + n.toNat ≤ s.inLen.toNat) :
    exec .msgParse s = .next (((s.setMessage c n p k).messageReplaced).setErr errOk) := by
  obtain ⟨hcmd, hlen, hpay, hlo, hhi⟩ := (Memory.holds_frameBytes hp).1 h
  have hread : readInput s.inBuf 2 n.toNat = .ok p := hp ▸ readInput_of_holds hpay
  simp only [exec, execMsgParse, hcmd, hlen, hread, hlo, hhi, fromLe16_le16,
    if_neg (show ¬ s.inLen.toNat < 4 by omega), if_neg (Nat.not_lt.mpr hfit)]

/-- The MSG group holds the message just stored in it. -/
theorem messageIs_setMessage (hp : p.length = n.toNat) (s : State) (c : Byte) (k : Word16) :
    MessageIs (s.setMessage c n p k) c p k :=
  ⟨rfl, hp.symm, Memory.holds_writeSeq _ 0 p, rfl⟩

/-- The length byte of a message of at most 255 bytes is its payload's size (10_state R29). -/
theorem toNat_lengthByte (hp : p.length ≤ 255) : (BitVec.ofNat 8 p.length).toNat = p.length := by
  rw [BitVec.toNat_ofNat, Nat.mod_eq_of_lt (by omega)]

theorem messageIs_buildMessage (hp : p.length ≤ 255) (s : State) (c : Byte) :
    MessageIs (s.buildMessage c p) c p (fieldsCrc c (BitVec.ofNat 8 p.length) p) :=
  ⟨rfl, toNat_lengthByte hp, Memory.holds_writeSeq _ 0 p, rfl⟩

/-- What message is held depends on the MSG group alone. -/
theorem MessageIs.congr (h : MessageIs s c p k) (e : SameMessage s t) : MessageIs t c p k := by
  obtain ⟨hcmd, hlen, hcrc, hpay⟩ := e
  exact ⟨hcmd.trans h.commandId, hlen ▸ h.length, Memory.holds_congr h.payload fun j _ => hpay _, hcrc.trans h.crc⟩

theorem MessageIs.payloadBytes (h : MessageIs s c p k) : payloadBytes s = p :=
  payloadBytes_of_holds h.length h.payload

theorem MessageIs.messageCrc (h : MessageIs s c p k) : messageCrc s = fieldsCrc c s.msgLen p := by
  rw [Sys2Proof.Machine.messageCrc, h.payloadBytes, h.commandId]

/-- MSG_SERIALIZE of the message (c, p) with the CRC k writes the frame of these (41_codec R123). -/
theorem exec_msgSerialize_of_messageIs (hmsg : s.msgp = true) (h : MessageIs s c p k) :
    exec .msgSerialize s = .next ((s.setFrame (frameBytes c s.msgLen p k)).setErr errOk) := by
  rw [exec_msgSerialize_of_msgp hmsg, h.commandId, h.payloadBytes, h.crc]

/-- MSG_VALIDATE of the message (c, p) with the CRC k recomputes the CRC of these fields (41_codec R129). -/
theorem exec_msgValidate_of_messageIs (hmsg : s.msgp = true) (h : MessageIs s c p k) :
    exec .msgValidate s =
      .next (((s.setScratch (fieldsCrc c s.msgLen p)).messageChecked (fieldsCrc c s.msgLen p == k)).setErr errOk) := by
  rw [exec_msgValidate_of_msgp hmsg, h.messageCrc, h.crc]

/-- Writing the same bytes at the same place again changes no byte. -/
theorem Memory.read_writeSeq_twice (m : Memory) (k j : Nat) (p : List Byte) :
    ((m.writeSeq k p).writeSeq k p).read j = (m.writeSeq k p).read j := by
  simp only [Memory.read_writeSeq]
  split <;> rfl

end CodecCommands

/-- Settles O18: the encode path stores the fields with the CRC it computed over them, and leaves the input alone. -/
theorem encodedMessageIsConsistent : Obligations.EncodedMessageIsConsistent := by
  intro s t c h herr
  obtain ⟨-, rfl⟩ | ⟨hle, p, hin, rfl⟩ := exec_msgEncode_next h
  · exact absurd (show errPayloadTooLarge = 0#3 from herr) (by decide)
  · have hp : p.length ≤ 255 := hin.1 ▸ hle
    have hmsg := messageIs_buildMessage hp s c
    exact ⟨p, hin, hmsg.congr ⟨rfl, rfl, rfl, fun _ => rfl⟩, hmsg.length.trans hin.1.symm⟩

/-- Settles O21: the frame ends with the two bytes of the held CRC, and the second MSG_SERIALIZE writes the frame of the
same MSG group. -/
theorem serializeKeepsTheHeldCrc : Obligations.SerializeKeepsTheHeldCrc := by
  intro s t hmsg h
  obtain rfl := Host.Outcome.next.inj ((exec_msgSerialize_of_msgp hmsg).symm.trans h)
  obtain ⟨-, -, -, hlo, hhi⟩ := (Memory.holds_frameBytes (payloadBytes_length s)).1 (Memory.holds_writeSeq s.outBuf 0 _)
  exact ⟨hlo, hhi, ⟨rfl, rfl, rfl, fun _ => rfl⟩, ⟨rfl, rfl, rfl⟩, _, exec_msgSerialize_of_msgp hmsg, rfl,
    fun a => Memory.read_writeSeq_twice ..⟩

/-- Settles O19: the length check comes before any read of IN_BUF. -/
theorem encodeRejectsLongPayload : Obligations.EncodeRejectsLongPayload :=
  fun _ c h => exec_msgEncode_tooLarge h c

/-- Settles O22: both commands check MSGP first. -/
theorem noMessageErrorChangesErrOnly : Obligations.NoMessageErrorChangesErrOnly :=
  fun _ h => ⟨exec_msgSerialize_noMessage h, exec_msgValidate_noMessage h⟩

/-! ### R132: the round trip, statement by statement (30_encoding R77, R78) -/

section RoundTrip

variable {s : State} {c : Byte} {p f : List Byte}

@[simp] theorem andThen_next (t : State) (g : State → Host.Outcome State Fault Refusal) : andThen (.next t) g = g t := rfl

theorem runHostOps_cons_of_next {op : HostOp} {t : State} (h : hostOp op (s.accept s.hostOps) = .next t)
    (ops : List HostOp) : runHostOps (op :: ops) s = runHostOps ops t := by
  simp only [runHostOps, h]

/-- The word of a command decodes to it (30_encoding R74, R76). -/
theorem decodeWord_encode (i : Instr) : decodeWord (encode i) = .ok i := by
  cases i with
  | crcFeed b => exact decodeWord_encode_crcFeed b
  | msgEncode c =>
    obtain ⟨hop, himm, -⟩ := Laws.WordFields.msgEncode c
    rw [decodeWord, hop, himm]
    rfl
  | crcInit | crcFeedbuf | msgSerialize | msgParse | msgValidate | pingBuild => rfl

/-- A command statement stores the command's word in CMD and executes the command (30_encoding R77, 10_state R26). -/
theorem hostOp_commandOp (i : Instr) (s : State) : hostOp (commandOp i) s = exec i (s.setCmd (encode i)) :=
  (regWrite_cmd ..).trans (issueCommand_of_decode (decodeWord_encode i))

/-- The state in which a command statement of a sequence executes its command. -/
def State.commandIssued (s : State) (i : Instr) : State := (s.accept s.hostOps).setCmd (encode i)

theorem MessageIs.commandIssued {k : Word16} (h : MessageIs s c p k) (i : Instr) :
    MessageIs (s.commandIssued i) c p k :=
  h.congr ⟨rfl, rfl, rfl, fun _ => rfl⟩

theorem runHostOps_commandOp {i : Instr} {t : State} (h : exec i (s.commandIssued i) = .next t)
    (ops : List HostOp) : runHostOps (commandOp i :: ops) s = runHostOps ops t :=
  runHostOps_cons_of_next ((hostOp_commandOp i _).trans h) ops

/-- A number up to IN_CAP fits the 16 bits of an index or a length (20_memory R51; 10_state R34). -/
theorem toNat_ofNat_of_le_inCap {n : Nat} (hn : n ≤ Config.inCap) : (BitVec.ofNat 16 n).toNat = n := by
  have hcap := Config.inCap_le
  rw [BitVec.toNat_ofNat, Nat.mod_eq_of_lt (by omega)]

/-- A host write below IN_CAP is taken (20_memory R63). -/
theorem hostOp_bufWrite_inBuf {i : Nat} (hi : i < Config.inCap) (b : Byte) (s : State) :
    hostOp (.bufWrite (.inBuf (BitVec.ofNat 16 i)) b) s = .next (s.setInByte i b) := by
  simp only [hostOp, bufWrite, toNat_ofNat_of_le_inCap (Nat.le_of_lt hi), if_pos hi]

/-- A host read of a frame byte answers it (10_state R37). -/
theorem hostOp_bufRead_outBuf {j : Nat} {b : Byte} (hcap : j < outCap) (hlen : j < s.outLen.toNat)
    (h : s.outBuf.read j = some b) :
    hostOp (.bufRead (.outBuf (BitVec.ofNat 16 j))) s = .next (s.setReply (.byte b)) := by
  have hj : (BitVec.ofNat 16 j).toNat = j :=
    toNat_ofNat_of_le_inCap (Nat.le_trans (Nat.le_of_lt hcap) Config.inCap_ge)
  have hb : bufByte (.outBuf (BitVec.ofNat 16 j)) s = some b := by
    simp only [bufByte, hj, if_pos hcap, if_pos hlen, h]
  exact congrArg Host.Outcome.next (bufRead_of_bufByte hb)

/-- A host write of a legal length to IN_LEN stores it (10_state R34). -/
theorem hostOp_regWrite_inLen {v : Word16} (hv : v.toNat ≤ Config.inCap) (s : State) :
    hostOp (.regWrite regInLen v) s = .next (s.setInLen v) := by
  have hne : regInLen ≠ regCmd := by decide
  simp only [hostOp, regWrite, if_neg hne, if_true, if_pos hv]

/-- Once IN_BUF begins with the bytes p, `wr IN_LEN, |p|` makes them the input sequence. -/
theorem runHostOps_wrInLen {v : Word16} (hv : v.toNat = p.length) (hcap : p.length ≤ Config.inCap)
    (h : s.inBuf.Holds 0 p) : ∃ t, runHostOps [.regWrite regInLen v] s = .next t ∧ InputIs t p :=
  ⟨_, runHostOps_cons_of_next (hostOp_regWrite_inLen (hv ▸ hcap) _) [], hv, h⟩

/-- `wrin i, ...` within IN_CAP writes the bytes from index i on (30_encoding R77). -/
theorem runHostOps_wrinOps {i : Nat} (hi : i + p.length ≤ Config.inCap) :
    ∃ t, runHostOps (wrinOps i p) s = .next t ∧ t.inBuf = s.inBuf.writeSeq i p := by
  induction p generalizing i s with
  | nil => exact ⟨s, rfl, rfl⟩
  | cons b p ih =>
    rw [List.length_cons] at hi
    have hwrite := hostOp_bufWrite_inBuf (show i < Config.inCap by omega) b (s.accept s.hostOps)
    rw [wrinOps, runHostOps_cons_of_next hwrite]
    exact ih (by omega)

/-- `load.in` within IN_CAP makes its bytes the input sequence (30_encoding R78). -/
theorem runHostOps_loadInOps (hcap : p.length ≤ Config.inCap) (s : State) :
    ∃ t, runHostOps (loadInOps p) s = .next t ∧ InputIs t p := by
  obtain ⟨u, hrun, hbuf⟩ := runHostOps_wrinOps (s := s) (i := 0) (p := p) (by omega)
  rw [loadInOps, runHostOps_append, hrun]
  exact runHostOps_wrInLen (toNat_ofNat_of_le_inCap hcap) hcap (hbuf ▸ Memory.holds_writeSeq s.inBuf 0 p)

/-- One turn of the loop of `copy.out` copies one frame byte. -/
theorem copyOutLoop_succ {j : Nat} {b : Byte} (hcap : j < outCap) (hlen : j < s.outLen.toNat)
    (h : s.outBuf.read j = some b) (n : Nat) :
    ∃ t, copyOutLoop (n + 1) j s = copyOutLoop n (j + 1) t ∧ t.inBuf = s.inBuf.write j b ∧
      t.outBuf = s.outBuf ∧ t.outLen = s.outLen := by
  have hread := runHostOps_cons_of_next (s := s) (hostOp_bufRead_outBuf hcap hlen h) []
  have hwrite (u : State) := runHostOps_cons_of_next (s := u)
    (hostOp_bufWrite_inBuf (Nat.lt_of_lt_of_le hcap Config.inCap_ge) b _) []
  refine ⟨(((s.accept s.hostOps).setReply (.byte b)).accept s.hostOps).setInByte j b, ?_, rfl, rfl, rfl⟩
  rw [copyOutLoop, hread, runHostOps, andThen_next, State.setReply_reply, replyByte, hwrite]
  rfl

/-- The loop of `copy.out` copies the rest f of the frame to the same place of IN_BUF. -/
theorem copyOutLoop_of_holds {j : Nat} (hcap : j + f.length ≤ outCap) (hlen : j + f.length ≤ s.outLen.toNat)
    (h : s.outBuf.Holds j f) :
    ∃ t, copyOutLoop f.length j s = .next t ∧ t.inBuf = s.inBuf.writeSeq j f := by
  induction f generalizing j s with
  | nil => exact ⟨s, rfl, rfl⟩
  | cons b f ih =>
    rw [List.length_cons] at hcap hlen ⊢
    obtain ⟨hb, hf⟩ := Memory.holds_cons.1 h
    obtain ⟨u, hturn, hin, hout, houtLen⟩ := copyOutLoop_succ (by omega) (by omega) hb f.length
    rw [hturn, Memory.writeSeq, ← hin]
    exact ih (by omega) (by rw [houtLen]; omega) (hout ▸ hf)

/-- `copy.out` makes the written frame the input sequence (30_encoding R78). -/
theorem copyOut_of_outputIs (h : OutputIs s f) (hcap : f.length ≤ outCap) :
    ∃ t, copyOut s = .next t ∧ InputIs t f := by
  obtain ⟨hlen, hout⟩ := h
  have hread : runHostOps [.regRead regOutLen] s = .next ((s.accept s.hostOps).setReply (.register s.outLen)) := rfl
  obtain ⟨u, hloop, hin⟩ := copyOutLoop_of_holds (j := 0)
    (s := (s.accept s.hostOps).setReply (.register s.outLen)) (by omega) (by simp [hlen]) hout
  rw [copyOut, hread, andThen_next, hlen, hloop]
  exact runHostOps_wrInLen hlen (Nat.le_trans hcap Config.inCap_ge) (hin ▸ Memory.holds_writeSeq s.inBuf 0 f)

/-- A frame within OUT_BUF's capacity, just written, is the output sequence (41_codec R123). -/
theorem outputIs_setFrame (hcap : f.length ≤ outCap) (s : State) : OutputIs (s.setFrame f) f :=
  ⟨toNat_ofNat_of_le_inCap (Nat.le_trans hcap Config.inCap_ge), Memory.holds_writeSeq s.outBuf 0 f⟩

/-- `load.in p`, `msg.encode c` builds the message (c, p) with its own CRC, whatever the state was (41_codec R120). -/
theorem runHostOps_load_encode (hp : p.length ≤ 255) (c : Byte) (s : State) :
    ∃ t, runHostOps (loadInOps p ++ [commandOp (.msgEncode c)]) s = .next t ∧ t.msgp = true ∧
      MessageIs t c p (fieldsCrc c t.msgLen p) := by
  obtain ⟨u, hload, hlen, hbuf⟩ := runHostOps_loadInOps (Nat.le_trans hp (Nat.le_trans (by decide) Config.inCap_ge)) s
  rw [runHostOps_append, hload, andThen_next,
    runHostOps_commandOp (exec_msgEncode_of_inputIs (s := u.commandIssued (.msgEncode c)) ⟨hlen, hbuf⟩ hp c)]
  exact ⟨_, rfl, rfl, (messageIs_buildMessage hp _ c).congr ⟨rfl, rfl, rfl, fun _ => rfl⟩⟩

/-- `msg.ser`, `copy.out` makes the held message's frame the input sequence, its CRC right or wrong (41_codec R123). -/
theorem runHostOps_serialize_copyOut {k : Word16} (hmsg : s.msgp = true) (h : MessageIs s c p k) :
    ∃ t, andThen (runHostOps [commandOp .msgSerialize] s) copyOut = .next t ∧
      InputIs t (frameBytes c s.msgLen p k) := by
  have hcap : (frameBytes c s.msgLen p k).length ≤ 259 := by
    have hbyte := s.msgLen.isLt
    rw [frameBytes_length, ← h.length]
    omega
  rw [runHostOps_commandOp (exec_msgSerialize_of_messageIs hmsg (h.commandIssued .msgSerialize))]
  obtain ⟨hlen, hout⟩ := outputIs_setFrame hcap (s.commandIssued .msgSerialize)
  exact copyOut_of_outputIs ⟨hlen, hout⟩ hcap

/-- `msg.parse`, `msg.valid` of a frame that ends with its own CRC hold its message as valid (41_codec R126, R129). -/
theorem runHostOps_parse_validate {n : Byte} (hp : p.length = n.toNat)
    (h : InputIs s (frameBytes c n p (fieldsCrc c n p))) :
    ∃ t, runHostOps [commandOp .msgParse, commandOp .msgValidate] s = .next t ∧
      MessageIs t c p (fieldsCrc c n p) ∧ t.msgp = true ∧ t.checked = true ∧ t.valid = true ∧ t.err = errOk := by
  obtain ⟨hlen, hbuf⟩ := h
  have hfit : 4 + n.toNat ≤ s.inLen.toNat := by rw [hlen, frameBytes_length, hp]; omega
  obtain ⟨u, hparse, hmsgp, hmsgLen, hmsg⟩ : ∃ u, exec .msgParse (s.commandIssued .msgParse) = .next u ∧
      u.msgp = true ∧ u.msgLen = n ∧ MessageIs u c p (fieldsCrc c n p) :=
    ⟨_, exec_msgParse_of_frame hp hbuf hfit, rfl, rfl,
      (messageIs_setMessage hp (s.commandIssued .msgParse) c _).congr ⟨rfl, rfl, rfl, fun _ => rfl⟩⟩
  rw [runHostOps_commandOp hparse,
    runHostOps_commandOp (exec_msgValidate_of_messageIs hmsgp (hmsg.commandIssued .msgValidate))]
  exact ⟨_, rfl, hmsg.congr ⟨rfl, rfl, rfl, fun _ => rfl⟩, hmsgp, rfl, beq_iff_eq.2 (hmsgLen ▸ rfl), rfl⟩

end RoundTrip

/-- Settles O28: MSG_ENCODE's message goes out and comes back as the frame of its fields and its CRC. -/
theorem roundTripKeepsTheMessage : Obligations.RoundTripKeepsTheMessage := by
  intro s c p hp
  obtain ⟨t1, hrun1, hmsgp, hmsg1⟩ := runHostOps_load_encode hp c s
  obtain ⟨t2, hrun2, hin⟩ := runHostOps_serialize_copyOut hmsgp hmsg1
  obtain ⟨t, hrun, hmsg, hflags⟩ := runHostOps_parse_validate hmsg1.length.symm hin
  exact ⟨t1, t2, t, hrun1, hrun2, hrun, hmsg1.crc ▸ hmsg, hmsg.length, hflags⟩

end Sys2Proof.Machine
end

section
/-! PROOFS. The exceptions' family (60_exceptions): what an illegal word does. -/

namespace Sys2Proof.Machine

/-- Settles O5: the decoder's answer to such a word is an error, and `step_illegalWord` gives the step from there. -/
theorem illegalWordSetsErrAndCmdOnly : Obligations.IllegalWordSetsErrAndCmdOnly := by
  intro s w rest hops hillegal
  cases hdec : decodeWord w with
  | error e => exact step_illegalWord hops hdec
  | ok i => exact absurd hdec (hillegal i)

end Sys2Proof.Machine
end

section
/-! PROOFS. Commands and host operations, each said once: the relation between a command and the states before and after
it, the relation between a command and the fault it stops with, and what a host operation can do to the block. -/

namespace Sys2Proof.Machine

variable {s t : State} {i : Instr} {c n len lo hi : Byte} {p : List Byte} {k : Word16} {f : Fault} {j : Nat}

/-! ### What a command does to the state where it completes -/

/-- IN_LEN says that the message is truncated, whatever the bytes beside the length byte are (41_codec R127). -/
def InputTruncated (s : State) : Prop :=
  s.inLen.toNat < 4 ∨ ∃ len, s.inBuf.read 1 = some len ∧ s.inLen.toNat < 4 + len.toNat

/-- `CommandEffect s i t`: from s the command i completes in t. One constructor per command and per error it raises. -/
inductive CommandEffect (s : State) : Instr → State → Prop
  | crcInit : CommandEffect s .crcInit ((s.setAcc crcInitial).setErr errOk)
  | crcFeed (b : Byte) : CommandEffect s (.crcFeed b) ((s.setAcc (crcStep s.acc b)).setErr errOk)
  | crcFeedbuf {p : List Byte} (hin : InputIs s p) :
      CommandEffect s .crcFeedbuf ((s.setAcc (crcOf s.acc p)).setErr errOk)
  | encodeTooLarge (c : Byte) (hlen : 255 < s.inLen.toNat) :
      CommandEffect s (.msgEncode c) (s.setErr errPayloadTooLarge)
  | encode (c : Byte) {p : List Byte} (hin : InputIs s p) (hp : p.length ≤ 255) :
      CommandEffect s (.msgEncode c) ((s.buildMessage c p).setErr errOk)
  | serializeNoMessage (hmsg : s.msgp = false) : CommandEffect s .msgSerialize (s.setErr errNoMessage)
  | serialize (hmsg : s.msgp = true) :
      CommandEffect s .msgSerialize
        ((s.setFrame (frameBytes s.msgCmd s.msgLen (payloadBytes s) s.msgCrc)).setErr errOk)
  | parseTruncated (htrunc : InputTruncated s) : CommandEffect s .msgParse (s.setErr errTruncatedMessage)
  | parse {c n : Byte} {p : List Byte} {k : Word16} (hp : p.length = n.toNat)
      (hframe : s.inBuf.Holds 0 (frameBytes c n p k)) (hfit : 4 + n.toNat ≤ s.inLen.toNat) :
      CommandEffect s .msgParse (((s.setMessage c n p k).messageReplaced).setErr errOk)
  | validateNoMessage (hmsg : s.msgp = false) : CommandEffect s .msgValidate (s.setErr errNoMessage)
  | validate (hmsg : s.msgp = true) :
      CommandEffect s .msgValidate
        (((s.setScratch (messageCrc s)).messageChecked (messageCrc s == s.msgCrc)).setErr errOk)
  | pingBuild :
      CommandEffect s .pingBuild
        (((s.countTimeDraw.buildMessage cmdPing (pingPayloadNow s)).setFrame
          (pingFrame (pingPayloadNow s))).setErr errOk)

/-- MSG_PARSE of truncated input raises its error, and reads no byte that its checks do not need (60_exceptions
R162). -/
theorem exec_msgParse_of_truncated (h : InputTruncated s) :
    exec .msgParse s = .next (s.setErr errTruncatedMessage) := by
  by_cases hshort : s.inLen.toNat < 4
  · exact if_pos hshort
  · obtain ⟨len, hlen, hfit⟩ := h.resolve_left hshort
    cases hcmd : s.inBuf.read 0 <;>
      simp only [exec, execMsgParse, if_neg hshort, hcmd, hlen, if_pos hfit, State.raise_eq]

/-- A buffer with a frame's parts, the two bytes of its CRC low byte first, holds the frame (30_encoding R70). -/
theorem Memory.holds_frameBytes_fromLe16 {m : Memory} (hcmd : m.read 0 = some c) (hlen : m.read 1 = some n)
    (hp : p.length = n.toNat) (hpay : m.Holds 2 p) (hlo : m.read (2 + n.toNat) = some lo)
    (hhi : m.read (3 + n.toNat) = some hi) : m.Holds 0 (frameBytes c n p (fromLe16 lo hi)) := by
  refine (Memory.holds_frameBytes hp).2 ⟨hcmd, hlen, hpay, hlo.trans ?_, hhi.trans ?_⟩
  · exact congrArg some (Laws.WordFields.immField_commandWord hi lo).symm
  · exact congrArg some (Laws.WordFields.opField_commandWord hi lo).symm

/-- A command completes with exactly its effect. -/
theorem exec_next_iff : exec i s = .next t ↔ CommandEffect s i t := by
  constructor
  · intro h
    cases i with
    | crcInit => exact exec_crcInit_next h ▸ .crcInit
    | crcFeed b => exact exec_crcFeed_next h ▸ .crcFeed b
    | crcFeedbuf =>
      obtain ⟨p, hin, rfl⟩ := exec_crcFeedbuf_next h
      exact .crcFeedbuf hin
    | msgEncode c =>
      obtain ⟨hlen, rfl⟩ | ⟨hlen, p, hin, rfl⟩ := exec_msgEncode_next h
      · exact .encodeTooLarge c hlen
      · exact .encode c hin (hin.1 ▸ hlen)
    | msgSerialize =>
      obtain ⟨hmsg, rfl⟩ | ⟨hmsg, rfl⟩ := exec_msgSerialize_next h
      · exact .serializeNoMessage hmsg
      · exact .serialize hmsg
    | msgParse =>
      obtain ⟨hshort, rfl⟩ | ⟨-, len, hlen, ⟨hshort, rfl⟩ | ⟨hfit, c, p, lo, hi, hcmd, hp, hpay, hlo, hhi, rfl⟩⟩ :=
        exec_msgParse_next h
      · exact .parseTruncated (.inl hshort)
      · exact .parseTruncated (.inr ⟨len, hlen, hshort⟩)
      · exact .parse hp (Memory.holds_frameBytes_fromLe16 hcmd hlen hp hpay hlo hhi) hfit
    | msgValidate =>
      obtain ⟨hmsg, rfl⟩ | ⟨hmsg, rfl⟩ := exec_msgValidate_next h
      · exact .validateNoMessage hmsg
      · exact .validate hmsg
    | pingBuild => exact exec_pingBuild_next h ▸ .pingBuild
  · intro h
    cases h with
    | crcInit | crcFeed | pingBuild => rfl
    | crcFeedbuf hin => exact exec_crcFeedbuf_of_inputIs hin
    | encodeTooLarge c hlen => exact exec_msgEncode_tooLarge hlen c
    | encode c hin hp => exact exec_msgEncode_of_inputIs hin hp c
    | serializeNoMessage hmsg => exact exec_msgSerialize_noMessage hmsg
    | serialize hmsg => exact exec_msgSerialize_of_msgp hmsg
    | parseTruncated htrunc => exact exec_msgParse_of_truncated htrunc
    | parse hp hframe hfit => exact exec_msgParse_of_frame hp hframe hfit
    | validateNoMessage hmsg => exact exec_msgValidate_noMessage hmsg
    | validate hmsg => exact exec_msgValidate_of_msgp hmsg

/-! ### The fault a command stops with -/

/-- j is the first index of the buffer m that holds no value, and it lies below the length n (60_exceptions R166). -/
structure FirstUnwritten (m : Memory) (n j : Nat) : Prop where
  unwritten : m.read j = none
  before : ∀ a, a < j → m.read a ≠ none
  below : j < n

/-- `CommandFault m n i j`: where IN_BUF is m and IN_LEN is n, the command i stops at the unwritten byte j, whatever the
rest of the state is (60_exceptions R165, R166). -/
inductive CommandFault (m : Memory) (n : Nat) : Instr → Nat → Prop
  | crcFeedbuf {j : Nat} (hj : FirstUnwritten m n j) : CommandFault m n .crcFeedbuf j
  | msgEncode (c : Byte) {j : Nat} (hj : FirstUnwritten m n j) (hlen : n ≤ 255) : CommandFault m n (.msgEncode c) j
  | parseLength {j : Nat} (hj : FirstUnwritten m n j) (hhead : j < 2) (hlong : 4 ≤ n) (hlen : m.read 1 = none) :
      CommandFault m n .msgParse j
  | parseFrame {j : Nat} {len : Byte} (hj : FirstUnwritten m n j) (hlen : m.read 1 = some len)
      (hframe : j < 4 + len.toNat) (hfit : 4 + len.toNat ≤ n) : CommandFault m n .msgParse j

/-- Reading stops at the first unwritten byte of the range. -/
theorem readInput_eq_error {m : Memory} {a n j : Nat} (hlo : a ≤ j) (hhi : j < a + n) (hj : m.read j = none)
    (hbefore : ∀ b, a ≤ b → b < j → m.read b ≠ none) : readInput m a n = .error (.unwrittenInput j) := by
  cases h : readInput m a n with
  | error f =>
    obtain ⟨l, hal, -, rfl, hl, hwritten⟩ := readInput_error h
    obtain hlt | rfl | hgt := Nat.lt_trichotomy j l
    · simpa [hj] using hwritten j hlo hlt
    · rfl
    · exact absurd hl (hbefore l hal hgt)
  | ok p =>
    obtain ⟨rfl, hholds⟩ := readInput_ok h
    have hread := hholds (j - a) (by omega)
    rw [Nat.add_sub_cancel' hlo, hj] at hread
    exact absurd hread.symm (by simp; omega)

/-- Reading succeeds where every byte of the range is written. -/
theorem readInput_eq_ok {m : Memory} {a n : Nat} (h : ∀ b, a ≤ b → b < a + n → m.read b ≠ none) :
    ∃ p, readInput m a n = .ok p := by
  cases hread : readInput m a n with
  | ok p => exact ⟨p, rfl⟩
  | error f =>
    obtain ⟨j, hlo, hhi, -, hj, -⟩ := readInput_error hread
    exact absurd hj (h j hlo hhi)

theorem FirstUnwritten.readInput_eq (hj : FirstUnwritten s.inBuf s.inLen.toNat j) :
    readInput s.inBuf 0 s.inLen.toNat = .error (.unwrittenInput j) :=
  readInput_eq_error (Nat.zero_le j) (by simpa using hj.below) hj.unwritten fun a _ => hj.before a

/-- The input sequence is not read whole where some byte of it holds no value. -/
theorem firstUnwritten_of_readInput (h : readInput s.inBuf 0 s.inLen.toNat = .error f) :
    ∃ j, f = .unwrittenInput j ∧ FirstUnwritten s.inBuf s.inLen.toNat j := by
  obtain ⟨j, -, hlt, rfl, hj, hwritten⟩ := readInput_error h
  exact ⟨j, rfl, hj, fun a ha => Option.isSome_iff_ne_none.1 (hwritten a (Nat.zero_le a) ha), by omega⟩

/-- CRC_FEEDBUF stops only where it reads an unwritten byte (40_crc R105). -/
theorem exec_crcFeedbuf_fault (h : exec .crcFeedbuf s = .fault f) :
    ∃ j, f = .unwrittenInput j ∧ CommandFault s.inBuf s.inLen.toNat .crcFeedbuf j := by
  simp only [exec, execCrcFeedbuf] at h
  split at h <;> cases h
  obtain ⟨j, rfl, hj⟩ := firstUnwritten_of_readInput ‹_›
  exact ⟨j, rfl, .crcFeedbuf hj⟩

/-- MSG_ENCODE stops only past its length check (41_codec R120). -/
theorem exec_msgEncode_fault (h : exec (.msgEncode c) s = .fault f) :
    ∃ j, f = .unwrittenInput j ∧ CommandFault s.inBuf s.inLen.toNat (.msgEncode c) j := by
  simp only [exec, execMsgEncode] at h
  split at h
  · cases h
  · split at h <;> cases h
    obtain ⟨j, rfl, hj⟩ := firstUnwritten_of_readInput ‹_›
    exact ⟨j, rfl, .msgEncode c hj (by omega)⟩

/-- Inside a held sequence every byte is written. -/
theorem Memory.Holds.read_ne_none {m : Memory} {a b : Nat} (h : m.Holds a p) (hlo : a ≤ b) (hhi : b < a + p.length) :
    m.read b ≠ none := by
  have hread := h (b - a) (by omega)
  rw [Nat.add_sub_cancel' hlo] at hread
  simp [hread]
  omega

/-- Past a written header the first unwritten byte is sought from index 2 on. -/
theorem firstUnwritten_of_header (hcmd : s.inBuf.read 0 = some c) (hlen : s.inBuf.read 1 = some len)
    (hpay : ∀ a, 2 ≤ a → a < j → s.inBuf.read a ≠ none) (hj : s.inBuf.read j = none) (hbelow : j < s.inLen.toNat) :
    FirstUnwritten s.inBuf s.inLen.toNat j where
  unwritten := hj
  below := hbelow
  before
    | 0, _ => by simp [hcmd]
    | 1, _ => by simp [hlen]
    | a + 2, ha => hpay (a + 2) (by omega) ha

/-- MSG_PARSE stops in the header without a length byte, or in a frame that fits in IN_LEN (60_exceptions R165). -/
theorem exec_msgParse_fault (h : exec .msgParse s = .fault f) :
    ∃ j, f = .unwrittenInput j ∧ CommandFault s.inBuf s.inLen.toNat .msgParse j := by
  simp only [exec, execMsgParse] at h
  split at h
  · cases h
  have hlong : 4 ≤ s.inLen.toNat := by omega
  split at h
  · cases h
    exact ⟨0, rfl, .parseLength ⟨‹_›, by omega, by omega⟩ (by decide) hlong ‹_›⟩
  · rename_i c hcmd hlen
    cases h
    have hbefore : ∀ a, a < 1 → s.inBuf.read a ≠ none := fun a ha => by simp [Nat.lt_one_iff.1 ha, hcmd]
    exact ⟨1, rfl, .parseLength ⟨hlen, hbefore, by omega⟩ (by decide) hlong hlen⟩
  · rename_i len hlen
    split at h
    · cases h
    have hfit : 4 + len.toNat ≤ s.inLen.toNat := by omega
    split at h
    · rename_i hcmd
      cases h
      exact ⟨0, rfl, .parseFrame ⟨hcmd, by omega, by omega⟩ hlen (by omega) hfit⟩
    · rename_i c f' hcmd hread
      cases h
      obtain ⟨j, -, hlt, rfl, hj, hpay⟩ := readInput_error hread
      have hfirst := firstUnwritten_of_header hcmd hlen
        (fun a h2 ha => Option.isSome_iff_ne_none.1 (hpay a h2 ha)) hj (by omega)
      exact ⟨j, rfl, .parseFrame hfirst hlen (by omega) hfit⟩
    · rename_i c p hcmd hread
      obtain ⟨hp, hpay⟩ := readInput_ok hread
      have hwritten : ∀ a, 2 ≤ a → a < 2 + len.toNat → s.inBuf.read a ≠ none :=
        fun a h2 ha => hpay.read_ne_none h2 (hp ▸ ha)
      split at h
      · rename_i hlo
        cases h
        exact ⟨_, rfl, .parseFrame (firstUnwritten_of_header hcmd hlen hwritten hlo (by omega)) hlen (by omega) hfit⟩
      · rename_i lo hlo hhi
        cases h
        have hwrittenLo : ∀ a, 2 ≤ a → a < 3 + len.toNat → s.inBuf.read a ≠ none := by
          intro a h2 ha
          obtain hlt | rfl : a < 2 + len.toNat ∨ a = 2 + len.toNat := by omega
          · exact hwritten a h2 hlt
          · simp [hlo]
        exact ⟨_, rfl, .parseFrame (firstUnwritten_of_header hcmd hlen hwrittenLo hhi (by omega)) hlen (by omega) hfit⟩
      · cases h

/-- With the length byte unwritten MSG_PARSE stops in the header (41_codec R126; log entry 7). -/
theorem exec_msgParse_of_lengthUnwritten (hj : FirstUnwritten s.inBuf s.inLen.toNat j) (hhead : j < 2)
    (hlong : 4 ≤ s.inLen.toNat) (hlen : s.inBuf.read 1 = none) : exec .msgParse s = .fault (.unwrittenInput j) := by
  obtain ⟨hunwritten, hbefore, -⟩ := hj
  obtain rfl | rfl : j = 0 ∨ j = 1 := by omega
  · simp only [exec, execMsgParse, if_neg (Nat.not_lt.mpr hlong), hunwritten, hlen]
  · obtain ⟨c, hcmd⟩ := Option.ne_none_iff_exists'.1 (hbefore 0 (by decide))
    simp only [exec, execMsgParse, if_neg (Nat.not_lt.mpr hlong), hcmd, hlen]

/-- With the length byte written MSG_PARSE stops at the frame's first unwritten byte (41_codec R126). -/
theorem exec_msgParse_of_frameUnwritten (hj : FirstUnwritten s.inBuf s.inLen.toNat j) (hlen : s.inBuf.read 1 = some len)
    (hframe : j < 4 + len.toNat) (hfit : 4 + len.toNat ≤ s.inLen.toNat) :
    exec .msgParse s = .fault (.unwrittenInput j) := by
  obtain ⟨hunwritten, hbefore, -⟩ := hj
  have hshort : ¬ s.inLen.toNat < 4 := by omega
  obtain rfl | hpos := Nat.eq_zero_or_pos j
  · simp only [exec, execMsgParse, if_neg hshort, hunwritten, hlen, if_neg (Nat.not_lt.mpr hfit)]
  obtain ⟨c, hcmd⟩ := Option.ne_none_iff_exists'.1 (hbefore 0 hpos)
  have hne : j ≠ 1 := by rintro rfl; simp [hlen] at hunwritten
  simp only [exec, execMsgParse, if_neg hshort, hcmd, hlen, if_neg (Nat.not_lt.mpr hfit)]
  by_cases hpay : j < 2 + len.toNat
  · rw [readInput_eq_error (by omega) hpay hunwritten fun a _ => hbefore a]
  · obtain ⟨p, hread⟩ := readInput_eq_ok fun a _ ha => hbefore a (Nat.lt_of_lt_of_le ha (Nat.not_lt.1 hpay))
    obtain rfl | rfl : j = 2 + len.toNat ∨ j = 3 + len.toNat := by omega
    · simp only [hread, hunwritten]
    · obtain ⟨lo, hlo⟩ := Option.ne_none_iff_exists'.1 (hbefore (2 + len.toNat) (by omega))
      simp only [hread, hlo, hunwritten]

/-- A command stops with exactly the faults that are due. -/
theorem exec_fault_iff : exec i s = .fault f ↔ ∃ j, f = .unwrittenInput j ∧ CommandFault s.inBuf s.inLen.toNat i j := by
  constructor
  · intro h
    cases i with
    | crcFeedbuf => exact exec_crcFeedbuf_fault h
    | msgEncode c => exact exec_msgEncode_fault h
    | msgParse => exact exec_msgParse_fault h
    | crcInit | crcFeed | pingBuild => cases h
    | msgSerialize | msgValidate => simp only [exec, execMsgSerialize, execMsgValidate] at h; split at h <;> cases h
  · rintro ⟨j, rfl, h⟩
    cases h with
    | crcFeedbuf hj => simp only [exec, execCrcFeedbuf, hj.readInput_eq]
    | msgEncode c hj hlen => simp only [exec, execMsgEncode, if_neg (Nat.not_lt.mpr hlen), hj.readInput_eq]
    | parseLength hj hhead hlong hlen => exact exec_msgParse_of_lengthUnwritten hj hhead hlong hlen
    | parseFrame hj hlen hframe hfit => exact exec_msgParse_of_frameUnwritten hj hlen hframe hfit

/-- Every command has a meaning (60_exceptions R166). -/
theorem exec_ne_refused (i : Instr) (s : State) (r : Refusal) : exec i s ≠ .refused r := by
  intro h
  cases i with
  | crcInit | crcFeed | pingBuild => cases h
  | crcFeedbuf | msgEncode | msgSerialize | msgParse | msgValidate =>
    simp only [exec, execCrcFeedbuf, execMsgEncode, execMsgSerialize, execMsgParse, execMsgValidate] at h
    repeat' split at h
    all_goals cases h

/-! ### What a host operation does to the block -/

/-- `HostAccess s t`: from s a host operation that is neither Reset nor a write to CMD leads to t (20_memory R63). -/
inductive HostAccess (s : State) : State → Prop
  | ignored : HostAccess s s
  | reads (r : HostReply) : HostAccess s (s.setReply r)
  | draws (r : HostReply) : HostAccess s (s.setReply r).countByteDraw
  | writesInLen {v : Word16} (hv : v.toNat ≤ Config.inCap) : HostAccess s (s.setInLen v)
  | writesVerMaj (v : Byte) : HostAccess s (s.setVerMaj v)
  | writesVerMin (v : Byte) : HostAccess s (s.setVerMin v)
  | writesInByte {a : Nat} (ha : a < Config.inCap) (b : Byte) : HostAccess s (s.setInByte a b)

/-- A host operation that completes is a Reset, a write to CMD, or one of the accesses above. -/
theorem hostOp_next {op : HostOp} (h : hostOp op s = .next t) :
    (op = .reset ∧ t = hostReset s) ∨ (∃ w, op = .regWrite regCmd w ∧ issueCommand w s = .next t) ∨
      HostAccess s t := by
  cases op with
  | regRead n => cases h; exact .inr (.inr (.reads _))
  | regWrite n v =>
    obtain ⟨rfl, hissue⟩ | ⟨-, hv, rfl⟩ | ⟨-, rfl⟩ | ⟨-, rfl⟩ | rfl := regWrite_next h
    · exact .inr (.inl ⟨v, rfl, hissue⟩)
    · exact .inr (.inr (.writesInLen hv))
    · exact .inr (.inr (.writesVerMaj _))
    · exact .inr (.inr (.writesVerMin _))
    · exact .inr (.inr .ignored)
  | bufRead a =>
    cases h
    obtain ⟨b, -, heq⟩ | ⟨-, heq⟩ := bufRead_cases a s <;> rw [heq]
    · exact .inr (.inr (.reads _))
    · exact .inr (.inr (.draws _))
  | bufWrite a b =>
    cases h
    obtain ⟨l, -, hl, heq⟩ | heq := bufWrite_cases a b s <;> rw [heq]
    · exact .inr (.inr (.writesInByte hl b))
    · exact .inr (.inr .ignored)
  | reset => cases h; exact .inl ⟨rfl, rfl⟩

/-- With no operation pending a step is idle (60_exceptions R173). -/
theorem step_idle (h : s.hostOps = []) : step s = .next s := by
  simp only [step, hostStep, h]

/-- A step that completes idles, resets the block, issues a command word, or is a host access. -/
theorem step_next_cases (h : step s = .next t) :
    t = s ∨ (∃ rest, s.hostOps = .reset :: rest ∧ t = hostReset (s.accept rest)) ∨
      (∃ w rest, s.hostOps = .regWrite regCmd w :: rest ∧ issueCommand w (s.accept rest) = .next t) ∨
      ∃ rest, HostAccess (s.accept rest) t := by
  obtain ⟨-, rfl⟩ | ⟨op, rest, hops, hop⟩ := step_next h
  · exact .inl rfl
  · obtain ⟨rfl, rfl⟩ | ⟨w, rfl, hissue⟩ | haccess := hostOp_next hop
    · exact .inr (.inl ⟨rest, hops, rfl⟩)
    · exact .inr (.inr (.inl ⟨w, rest, hops, hissue⟩))
    · exact .inr (.inr (.inr ⟨rest, haccess⟩))

end Sys2Proof.Machine
end

section
/-! PROOFS. Decode and encode agree (30_encoding). -/

namespace Sys2Proof

/-! ### R74, R76: decode and encode agree -/

/-- Settles O1, command by command, from the fields of each command's word. -/
theorem decodeOfEncodeIsTheCommand : Obligations.DecodeOfEncodeIsTheCommand :=
  fun i _ => Machine.decodeWord_encode i

theorem noOperand_eq_ok_iff {op imm : Byte} {i j : Instr} : noOperand op imm i = .ok j ↔ imm = 0x00#8 ∧ i = j := by
  rw [noOperand]
  split <;> simp [*]

/-- The decode function answers a command whose two fields are those of the word, branch by branch. -/
theorem fields_of_decodeWord {w : Word16} {i : Instr} (h : decodeWord w = .ok i) :
    i.opcode = opField w ∧ i.operand = immField w := by
  rw [decodeWord] at h
  split_ifs at h with hop hop hop hop hop hop hop hop <;> rw [hop]
  · cases h; exact ⟨rfl, rfl⟩
  · cases h; exact ⟨rfl, rfl⟩
  all_goals obtain ⟨himm, rfl⟩ := noOperand_eq_ok_iff.1 h; exact ⟨rfl, himm.symm⟩

/-- Settles O2: the command carries the word's two fields, and a word is made of its fields. -/
theorem decodedWordIsTheEncoding : Obligations.DecodedWordIsTheEncoding := by
  intro w i h
  obtain ⟨hop, himm⟩ := fields_of_decodeWord h
  rw [encode, hop, himm, commandWord_fields]

/-- Settles O4: each sample word is decoded, and each sample command encoded, by evaluation. -/
theorem sampleWordsDecodeAsTabulated : Obligations.SampleWordsDecodeAsTabulated :=
  ⟨rfl, rfl, rfl, rfl, rfl, rfl, rfl, rfl, rfl, rfl, rfl, rfl, rfl, rfl, rfl, rfl, rfl, rfl, rfl, rfl, rfl⟩

end Sys2Proof
end

section
/-! PROOFS. What a command does to each group of the state, and that every step keeps the invariant (10_state R44). -/

namespace Sys2Proof.Machine

variable {s t : State} {i : Instr} {n : Byte} {p : List Byte} {cap j : Nat} {m : Memory}

/-! ### What a command does to each group of the state -/

/-- No command writes IN_LEN or IN_BUF (10_state R34, R35). -/
theorem exec_input (he : exec i s = .next t) : t.inLen = s.inLen ∧ t.inBuf = s.inBuf := by
  cases exec_next_iff.1 he <;> exact ⟨rfl, rfl⟩

theorem exec_sameInput (he : exec i s = .next t) : SameInput s t := by
  obtain ⟨hlen, hbuf⟩ := exec_input he
  exact ⟨hlen, fun _ => by rw [hbuf]⟩

/-- A command leaves the output alone or is one of the two that write a frame to it (10_state R36, R37). -/
theorem exec_output (he : exec i s = .next t) :
    (t.outLen = s.outLen ∧ t.outBuf = s.outBuf) ∨
      ((i = .msgSerialize ∨ i = .pingBuild) ∧ t.err = errOk ∧ ∃ f : List Byte, f.length ≤ outCap ∧
        t.outLen = BitVec.ofNat 16 f.length ∧ t.outBuf = s.outBuf.writeSeq 0 f) := by
  cases exec_next_iff.1 he with
  | serialize hmsg =>
    have hlen : (payloadBytes s).length + 4 ≤ outCap := by
      rw [payloadBytes_length]
      exact Nat.add_le_add_right (Nat.le_of_lt_succ s.msgLen.isLt) 4
    exact .inr ⟨.inl rfl, rfl, _, (frameBytes_length ..).trans_le hlen, rfl, rfl⟩
  | pingBuild =>
    have hlen : (pingFrame (pingPayloadNow s)).length ≤ outCap := by
      rw [pingFrame_length, pingPayloadNow_length]
      decide
    exact .inr ⟨.inr rfl, rfl, _, hlen, rfl, rfl⟩
  | _ => exact .inl ⟨rfl, rfl⟩

/-- A command leaves the MSG group and MSGP alone or is one of the three that take a message into it (10_state R27). -/
theorem exec_message (he : exec i s = .next t) :
    (t.msgp = s.msgp ∧ t.msgCmd = s.msgCmd ∧ t.msgLen = s.msgLen ∧ t.msgCrc = s.msgCrc ∧
        t.msgPayload = s.msgPayload) ∨
      (((∃ c, i = .msgEncode c) ∨ i = .msgParse ∨ i = .pingBuild) ∧ t.err = errOk ∧ t.msgp = true ∧
        ∃ p : List Byte, p.length = t.msgLen.toNat ∧ t.msgPayload = s.msgPayload.writeSeq 0 p) := by
  cases exec_next_iff.1 he with
  | encode c hin hp => exact .inr ⟨.inl ⟨c, rfl⟩, rfl, rfl, _, (toNat_lengthByte hp).symm, rfl⟩
  | parse hp hframe hfit => exact .inr ⟨.inr (.inl rfl), rfl, rfl, _, hp, rfl⟩
  | pingBuild => exact .inr ⟨.inr (.inr rfl), rfl, rfl, _, rfl, rfl⟩
  | _ => exact .inl ⟨rfl, rfl, rfl, rfl, rfl⟩

/-- Every command leaves one of the codes of 10_state R25 in ERR. -/
theorem exec_err_le (he : exec i s = .next t) : t.err.toNat ≤ 4 := by
  cases exec_next_iff.1 he <;> rw [State.setErr_err] <;> decide

/-! ### R44, R51: what keeps the invariant -/

theorem Memory.Fits.writeSeq (h : m.Fits cap) (hp : p.length ≤ cap) : (m.writeSeq 0 p).Fits cap :=
  ⟨Memory.wf_writeSeq p 0 h.1, Memory.within_writeSeq p h.2 (by omega)⟩

theorem Memory.isSome_read_writeSeq (m : Memory) (hj : j < p.length) : ((m.writeSeq 0 p).read j).isSome := by
  rw [Memory.read_writeSeq_in p m hj]
  simp [hj]

/-- A byte counts at most 255, the capacity of MSG_PAYLOAD. -/
theorem length_le_payloadCap (hp : p.length = n.toNat) : p.length ≤ payloadCap :=
  hp ▸ Nat.le_of_lt_succ n.isLt

theorem Inv.reset : Inv State.reset where
  command := .reset
  inFits := ⟨.nil, nofun⟩
  outFits := ⟨.nil, nofun⟩
  payFits := ⟨.nil, nofun⟩
  payload := nofun
  frame _ h := absurd h (Nat.not_lt_zero _)
  err := by decide

/-- The invariant does not speak of CMD, of the version registers or of the model's own fields. -/
theorem Inv.outside (h : Inv s) (w : Word16) (maj min : Byte) (ops : List HostOp) (r : HostReply) (b u : Nat) :
    Inv { s with cmd := w, verMaj := maj, verMin := min, hostOps := ops, reply := r, byteDraws := b, timeDraws := u } :=
  ⟨⟨h.command.noMessage, h.command.checkedIsResult, h.command.unchecked, h.command.outLen, h.command.inLen⟩,
    h.inFits, h.outFits, h.payFits, h.payload, h.frame, h.err⟩

theorem Inv.setErr (h : Inv s) {e : BitVec 3} (he : e.toNat ≤ 4) : Inv (s.setErr e) :=
  ⟨h.command.setErr e, h.inFits, h.outFits, h.payFits, h.payload, h.frame, he⟩

theorem Inv.setInLen (h : Inv s) {v : Word16} (hv : v.toNat ≤ Config.inCap) : Inv (s.setInLen v) :=
  ⟨⟨h.command.noMessage, h.command.checkedIsResult, h.command.unchecked, h.command.outLen, hv⟩,
    h.inFits, h.outFits, h.payFits, h.payload, h.frame, h.err⟩

theorem Inv.setInByte (h : Inv s) (hj : j < Config.inCap) (b : Byte) : Inv (s.setInByte j b) :=
  ⟨⟨h.command.noMessage, h.command.checkedIsResult, h.command.unchecked, h.command.outLen, h.command.inLen⟩,
    ⟨Memory.wf_write j b h.inFits.1, Memory.within_write b h.inFits.2 hj⟩, h.outFits, h.payFits, h.payload, h.frame,
    h.err⟩

theorem Inv.of_exec (h : Inv s) (he : exec i s = .next t) : Inv t where
  command := h.command.of_exec i he
  inFits := (exec_input he).2 ▸ h.inFits
  outFits := by
    obtain ⟨-, hbuf⟩ | ⟨-, -, f, hcap, -, hbuf⟩ := exec_output he <;> rw [hbuf]
    · exact h.outFits
    · exact h.outFits.writeSeq hcap
  payFits := by
    obtain ⟨-, -, -, -, hbuf⟩ | ⟨-, -, -, p, hp, hbuf⟩ := exec_message he <;> rw [hbuf]
    · exact h.payFits
    · exact h.payFits.writeSeq (length_le_payloadCap hp)
  payload := by
    obtain ⟨hmsg, -, hlen, -, hbuf⟩ | ⟨-, -, -, p, hp, hbuf⟩ := exec_message he <;> rw [hbuf]
    · rw [hmsg, hlen]
      exact h.payload
    · exact fun _ j hj => Memory.isSome_read_writeSeq _ (hp ▸ hj)
  frame := by
    obtain ⟨hlen, hbuf⟩ | ⟨-, -, f, hcap, hlen, hbuf⟩ := exec_output he <;> rw [hlen, hbuf]
    · exact h.frame
    · rw [toNat_ofNat_of_le_inCap (Nat.le_trans hcap Config.inCap_ge)]
      exact fun j hj => Memory.isSome_read_writeSeq _ hj
  err := exec_err_le he

theorem Inv.of_issueCommand (h : Inv s) {w : Word16} (hissue : issueCommand w s = .next t) : Inv t := by
  have hcmd : Inv (s.setCmd w) := h.outside ..
  obtain ⟨i, -, he⟩ | ⟨e, -, rfl⟩ := issueCommand_next hissue
  · exact hcmd.of_exec he
  · exact hcmd.setErr (by decide)

theorem Inv.of_hostAccess (h : Inv s) (ha : HostAccess s t) : Inv t := by
  cases ha with
  | ignored => exact h
  | reads | draws | writesVerMaj | writesVerMin => exact h.outside ..
  | writesInLen hv => exact h.setInLen hv
  | writesInByte hj b => exact h.setInByte hj b

/-- Settles O60: a step idles, resets, issues a word or is a host access, and each of these keeps the invariant. -/
theorem everyStepKeepsTheInvariant : Obligations.EveryStepKeepsTheInvariant := by
  intro s t h hstep
  have haccept (rest : List HostOp) : Inv (s.accept rest) := h.outside ..
  obtain rfl | ⟨rest, -, rfl⟩ | ⟨w, rest, -, hissue⟩ | ⟨rest, ha⟩ := step_next_cases hstep
  · exact h
  · exact Inv.reset.outside ..
  · exact (haccept rest).of_issueCommand hissue
  · exact (haccept rest).of_hostAccess ha

/-- Settles O58: after reset nothing is held, written or checked. -/
theorem resetMeetsTheInvariant : Obligations.ResetMeetsTheInvariant := Inv.reset

end Sys2Proof.Machine
end

section
/-! PROOFS. SCRATCH is not observable (10_state R33). -/

namespace Sys2Proof.Machine

variable {s t : State} {i : Instr}

/-- A command's effect carries over to another value of SCRATCH, up to SCRATCH itself. -/
theorem CommandEffect.setScratch (h : CommandEffect s i t) (x : Word16) :
    ∃ y, CommandEffect (s.setScratch x) i (t.setScratch y) := by
  cases h with
  | crcInit => exact ⟨x, .crcInit⟩
  | crcFeed b => exact ⟨x, .crcFeed b⟩
  | crcFeedbuf hin => exact ⟨x, .crcFeedbuf hin⟩
  | encodeTooLarge c hlen => exact ⟨x, .encodeTooLarge c hlen⟩
  | encode c hin hp => exact ⟨_, .encode c hin hp⟩
  | serializeNoMessage hmsg => exact ⟨x, .serializeNoMessage hmsg⟩
  | serialize hmsg => exact ⟨x, .serialize hmsg⟩
  | parseTruncated htrunc => exact ⟨x, .parseTruncated htrunc⟩
  | parse hp hframe hfit => exact ⟨x, .parse hp hframe hfit⟩
  | validateNoMessage hmsg => exact ⟨x, .validateNoMessage hmsg⟩
  | validate hmsg => exact ⟨messageCrc s, .validate hmsg⟩
  | pingBuild => exact ⟨_, .pingBuild⟩

theorem differInScratch_next (t : State) (y : Word16) : DifferInScratch (.next t) (.next (t.setScratch y)) := ⟨y, rfl⟩

/-- What a command completes with differs in SCRATCH alone, and whether it stops does not depend on SCRATCH at all. -/
theorem exec_differInScratch (i : Instr) (s : State) (x : Word16) :
    DifferInScratch (exec i s) (exec i (s.setScratch x)) := by
  cases h : exec i s with
  | next t =>
    obtain ⟨y, hy⟩ := (exec_next_iff.1 h).setScratch x
    rw [exec_next_iff.2 hy]
    exact differInScratch_next t y
  | fault f =>
    have hfault : exec i (s.setScratch x) = .fault f := exec_fault_iff.2 (exec_fault_iff (s := s).1 h)
    rw [hfault]
    rfl
  | refused r => exact absurd h (exec_ne_refused i s r)

theorem issueCommand_differInScratch (w : Word16) (s : State) (x : Word16) :
    DifferInScratch (issueCommand w s) (issueCommand w (s.setScratch x)) := by
  cases hdec : decodeWord w with
  | ok i =>
    rw [issueCommand_of_decode hdec, issueCommand_of_decode hdec]
    exact exec_differInScratch i (s.setCmd w) x
  | error e =>
    simp only [issueCommand, hdec]
    exact differInScratch_next (s.setCmd w).illegalCommand x

theorem regWrite_differInScratch (n : BitVec 8) (v : Word16) (s : State) (x : Word16) :
    DifferInScratch (regWrite n v s) (regWrite n v (s.setScratch x)) := by
  unfold regWrite
  split_ifs
  · exact issueCommand_differInScratch v s x
  · exact differInScratch_next (s.setInLen v) x
  · exact differInScratch_next s x
  · exact differInScratch_next (s.setVerMaj _) x
  · exact differInScratch_next (s.setVerMin _) x
  · exact differInScratch_next s x

/-- A host read of an unspecified byte draws it (20_memory R59). -/
theorem bufRead_of_unspecified {a : BufIndex} (h : bufByte a s = none) :
    bufRead a s = (s.setReply (.byte (Config.freeByte s.byteDraws))).countByteDraw := by
  simp only [bufRead, h]

theorem bufRead_setScratch (a : BufIndex) (s : State) (x : Word16) :
    bufRead a (s.setScratch x) = (bufRead a s).setScratch x := by
  cases h : bufByte a s with
  | some b => rw [bufRead_of_bufByte h, bufRead_of_bufByte (s := s.setScratch x) h]; rfl
  | none => rw [bufRead_of_unspecified h, bufRead_of_unspecified (s := s.setScratch x) h]; rfl

theorem bufWrite_setScratch (a : BufIndex) (b : Byte) (s : State) (x : Word16) :
    bufWrite a b (s.setScratch x) = (bufWrite a b s).setScratch x := by
  cases a with
  | inBuf j => simp only [bufWrite]; split <;> rfl
  | outBuf | payload => rfl

/-- No host operation shows SCRATCH: it is no register and no buffer (10_state R33). -/
theorem hostOp_differInScratch (op : HostOp) (s : State) (x : Word16) :
    DifferInScratch (hostOp op s) (hostOp op (s.setScratch x)) := by
  cases op with
  | regRead n => exact differInScratch_next (s.setReply (.register (regValue n s))) x
  | regWrite n v => exact regWrite_differInScratch n v s x
  | bufRead a => exact ⟨x, bufRead_setScratch a s x⟩
  | bufWrite a b => exact ⟨x, bufWrite_setScratch a b s x⟩
  | reset => exact differInScratch_next (hostReset s) State.reset.scratch

/-- Settles O46: both states take the same operation, and no operation shows SCRATCH. -/
theorem scratchIsNotObservable : Obligations.ScratchIsNotObservable := by
  intro s x
  change DifferInScratch (step s) (step (s.setScratch x))
  cases hops : s.hostOps with
  | nil =>
    rw [step_idle hops, step_idle (s := s.setScratch x) hops]
    exact differInScratch_next s x
  | cons op rest =>
    rw [step_cons hops, step_cons (s := s.setScratch x) hops]
    exact hostOp_differInScratch op (s.accept rest) x

end Sys2Proof.Machine
end

section
/-! PROOFS. The CRC Engine against the bit-serial CRC: the step is eight single-bit steps, each of them loses nothing,
and so a CRC tells apart any two sequences that differ in one byte; and the results of the CRC commands. -/

namespace Sys2Proof.Machine

variable {s t : State} {u v : Word16} {b x : Byte} {p : List Byte}

/-! ### R109: the step is eight bits of the bit-serial CRC -/

/-- Eight bits of the bit-serial CRC (40_crc R109). -/
def crcByte (v : Word16) : Word16 := crcBit (crcBit (crcBit (crcBit (crcBit (crcBit (crcBit (crcBit v)))))))

/-- What the step's last line makes of tmp (40_crc R101). -/
def crcTail (x : Byte) : Word16 := (x.setWidth 16 <<< 8) ^^^ (x.setWidth 16 <<< 3) ^^^ (x.setWidth 16 >>> 4)

theorem crcStep_eq_crcTail (v : Word16) (b : Byte) : crcStep v b = (v >>> 8) ^^^ crcTail (crcFold (crcMix v b)) := by
  simp only [crcStep_eq, crcTail, BitVec.xor_assoc]

theorem crcStepBitSerial_eq (v : Word16) (b : Byte) : crcStepBitSerial v b = crcByte (v ^^^ b.setWidth 16) := rfl

/-- The bit-serial CRC is linear. -/
theorem crcBit_xor (u v : Word16) : crcBit (u ^^^ v) = crcBit u ^^^ crcBit v := by
  unfold crcBit
  rw [BitVec.getLsbD_xor, BitVec.ushiftRight_xor_distrib]
  cases u.getLsbD 0 <;> cases v.getLsbD 0
  · rfl
  · exact BitVec.xor_assoc ..
  · simp only [Bool.true_xor, Bool.not_false, if_true, Bool.false_eq_true, if_false]; ac_rfl
  · simp only [Bool.xor_self, if_true, Bool.false_eq_true, if_false]
    have hpairs : (u >>> 1 ^^^ 0x8408#16) ^^^ (v >>> 1 ^^^ 0x8408#16) =
        (u >>> 1 ^^^ v >>> 1) ^^^ (0x8408#16 ^^^ 0x8408#16) := by ac_rfl
    rw [hpairs, BitVec.xor_self, BitVec.xor_zero]

theorem crcByte_xor (u v : Word16) : crcByte (u ^^^ v) = crcByte u ^^^ crcByte v := by
  simp only [crcByte, crcBit_xor]

/-- A high byte is shifted down whole. -/
theorem crcByte_high : ∀ x : Byte, crcByte (x.setWidth 16 <<< 8) = x.setWidth 16 := by decide

/-- A low byte becomes the value the step's formula gives it. -/
theorem crcByte_low : ∀ x : Byte, crcByte (x.setWidth 16) = crcTail (crcFold x) := by decide

/-- A word is the exclusive or of its two bytes at their places. -/
theorem eq_highByte_xor_lowByte (v : Word16) :
    v = (v.extractLsb' 8 8).setWidth 16 <<< 8 ^^^ (v.setWidth 8).setWidth 16 := by
  ext j hj
  rw [← BitVec.getLsbD_eq_getElem]
  by_cases hlow : j < 8
  · simp [hlow, BitVec.getLsbD_eq_getElem hj]
  · simp [hlow, show j - 8 < 8 by omega, show 8 + (j - 8) = j by omega]

/-- Eight bits shift the high byte down and mix the low byte into it. -/
theorem crcByte_eq (v : Word16) : crcByte v = (v >>> 8) ^^^ crcTail (crcFold (v.setWidth 8)) := by
  conv_lhs => rw [eq_highByte_xor_lowByte v]
  rw [crcByte_xor, crcByte_high, crcByte_low, setWidth_highByte]

/-- The step of 40_crc R101 is eight bits of the bit-serial CRC, of the state with the byte mixed in. -/
theorem crcStep_eq_crcByte (v : Word16) (b : Byte) : crcStep v b = crcByte (v ^^^ b.setWidth 16) := by
  have hhigh : (b.setWidth 16) >>> 8 = 0#16 := by bv_omega
  rw [crcByte_eq, crcStep_eq_crcTail, BitVec.ushiftRight_xor_distrib, hhigh, BitVec.xor_zero, crcMix,
    BitVec.setWidth_xor, BitVec.setWidth_setWidth_of_le _ (by decide), BitVec.setWidth_eq, BitVec.xor_comm b]

/-- Settles O10: by linearity a word's two bytes are looked at apart, and each takes 256 values. -/
theorem crcStepEqualsBitSerialCrc : Obligations.CrcStepEqualsBitSerialCrc := crcStep_eq_crcByte

/-! ### R133: what the CRC tells apart -/

/-- The constant's top bit shows whether the constant was applied, so one bit of the CRC loses nothing. -/
theorem crcBit_eq_zero (h : crcBit v = 0#16) : v = 0#16 := by
  unfold crcBit at h
  split at h
  · have hmsb := congrArg BitVec.msb h
    simp only [BitVec.msb_xor, BitVec.msb_ushiftRight, Nat.zero_lt_one, decide_true, Bool.not_true, Bool.false_and,
      Bool.false_xor] at hmsb
    exact absurd hmsb (by decide)
  · rename_i hbit
    simp only [BitVec.getLsbD, Nat.testBit_zero, decide_eq_true_eq] at hbit
    bv_omega

theorem crcBit_injective : Function.Injective crcBit := fun u v h =>
  BitVec.xor_eq_zero_iff.1 (crcBit_eq_zero (by rw [crcBit_xor, h, BitVec.xor_self]))

theorem crcByte_injective : Function.Injective crcByte :=
  crcBit_injective.iterate 8

theorem crcStep_injective_state (b : Byte) : Function.Injective fun v => crcStep v b := fun u v h => by
  simp only [crcStep_eq_crcByte] at h
  exact (BitVec.xor_left_inj _).1 (crcByte_injective h)

theorem crcStep_injective_byte (v : Word16) : Function.Injective (crcStep v) := fun b x h => by
  rw [crcStep_eq_crcByte, crcStep_eq_crcByte] at h
  have hwide : b.setWidth 16 = x.setWidth 16 := (BitVec.xor_right_inj _).1 (crcByte_injective h)
  rw [← lowByte_setWidth b, hwide, lowByte_setWidth]

theorem crcOf_injective_state (p : List Byte) : Function.Injective fun v => crcOf v p := by
  induction p with
  | nil => exact fun _ _ h => h
  | cons b p ih => exact ih.comp (crcStep_injective_state b)

/-- A sequence with one byte changed has another CRC. -/
theorem crcOf_set_ne {j : Nat} (hj : j < p.length) (hne : p[j]? ≠ some x) : crcOf v (p.set j x) ≠ crcOf v p := by
  induction p generalizing v j with
  | nil => exact absurd hj (Nat.not_lt_zero j)
  | cons b p ih =>
    cases j with
    | zero =>
      intro h
      have hx : x = b := crcStep_injective_byte v (crcOf_injective_state p h)
      exact hne (congrArg some hx.symm)
    | succ j => exact ih (Nat.lt_of_succ_lt_succ hj) hne

/-! ### R103 to R105: the commands of the CRC Engine -/

/-- Settles O13: the effects of the two commands, which have no condition. -/
theorem crcInitAndCrcFeedResults : Obligations.CrcInitAndCrcFeedResults :=
  ⟨fun _ => exec_next_iff.2 .crcInit, fun _ b => exec_next_iff.2 (.crcFeed b)⟩

/-- Settles O14: the effect of CRC_FEEDBUF on the input sequence. -/
theorem crcFeedbufResult : Obligations.CrcFeedbufResult := fun _ _ hin => exec_next_iff.2 (.crcFeedbuf hin)

/-- Settles O16: each of the three commands is an update of ACC and one of ERR. -/
theorem crcCommandsFrame : Obligations.CrcCommandsFrame := by
  intro i s t hi he
  have hframe (v : Word16) (e : BitVec 3) : let u := (s.setAcc v).setErr e
      SameInput s u ∧ SameOutput s u ∧ SameMessage s u ∧ SameFlags s u ∧ SameSurroundings s u ∧
        u.scratch = s.scratch ∧ u.timeDraws = s.timeDraws := by
    simp [SameInput, SameOutput, SameMessage, SameFlags, SameSurroundings]
  obtain rfl | ⟨b, rfl⟩ | rfl := hi
  · cases exec_next_iff.1 he; exact hframe _ _
  · cases exec_next_iff.1 he; exact hframe _ _
  · cases exec_next_iff.1 he; exact hframe _ _

/-! ### R78: the bytes of `crc.bytes`, or loaded and fed at once -/

theorem runHostOps_cons_next {op : HostOp} {ops : List HostOp} (h : runHostOps (op :: ops) s = .next t) :
    ∃ u, hostOp op (s.accept s.hostOps) = .next u ∧ runHostOps ops u = .next t := by
  rw [runHostOps] at h
  split at h
  · exact ⟨_, ‹_›, h⟩
  · cases h
  · cases h

/-- Without a Reset and a write to CMD a sequence of host operations leaves ACC alone (40_crc R106). -/
theorem runHostOps_acc {ops : List HostOp} (hops : ∀ op ∈ ops, op ≠ .reset ∧ ∀ w, op ≠ .regWrite regCmd w)
    (h : runHostOps ops s = .next t) : t.acc = s.acc := by
  induction ops generalizing s with
  | nil => cases h; rfl
  | cons op ops ih =>
    obtain ⟨hreset, hcmd⟩ := hops op List.mem_cons_self
    obtain ⟨u, hop, hrun⟩ := runHostOps_cons_next h
    refine (ih (fun o ho => hops o (List.mem_cons_of_mem op ho)) hrun).trans ?_
    obtain hacc | hop | ⟨w, i, hop, -⟩ := hostOp_acc hop
    · exact hacc
    · exact absurd hop hreset
    · exact absurd hop (hcmd w)

theorem exists_bufWrite_of_mem_wrinOps {op : HostOp} {j : Nat} (h : op ∈ wrinOps j p) : ∃ a b, op = .bufWrite a b := by
  induction p generalizing j with
  | nil => cases h
  | cons b p ih =>
    obtain rfl | h := List.mem_cons.1 h
    · exact ⟨_, b, rfl⟩
    · exact ih h

/-- `load.in` neither resets nor issues a command. -/
theorem ne_of_mem_loadInOps {op : HostOp} (h : op ∈ loadInOps p) : op ≠ .reset ∧ ∀ w, op ≠ .regWrite regCmd w := by
  obtain h | h := List.mem_append.1 h
  · obtain ⟨a, b, rfl⟩ := exists_bufWrite_of_mem_wrinOps h
    exact ⟨nofun, nofun⟩
  · rw [List.mem_singleton.1 h]
    exact ⟨nofun, fun w hw => absurd (HostOp.regWrite.inj hw).1 (by decide)⟩

/-- Settles O56: both ways fold the bytes into ACC, and loading them leaves ACC alone. -/
theorem crcBytesEqualsLoadThenFeedbuf : Obligations.CrcBytesEqualsLoadThenFeedbuf := by
  intro s p hcap
  obtain ⟨t, hfeed, hacc⟩ := runHostOps_crcBytesOps p s
  obtain ⟨u, hload, hlen, hbuf⟩ := runHostOps_loadInOps hcap s
  have hkeep : u.acc = s.acc := runHostOps_acc (fun _ => ne_of_mem_loadInOps) hload
  rw [runHostOps_append, hload, andThen_next,
    runHostOps_commandOp (exec_crcFeedbuf_of_inputIs (s := u.commandIssued .crcFeedbuf) ⟨hlen, hbuf⟩)]
  exact ⟨t, _, hfeed, rfl, hacc.trans (congrArg (crcOf · p) hkeep.symm)⟩

end Sys2Proof.Machine
end

section
/-! PROOFS. The Message Codec's commands and PING_BUILD: their results, repeated commands, what MSG_VALIDATE detects,
and what each of them leaves unchanged. -/

namespace Sys2Proof.Machine

variable {s t : State} {i : Instr} {c n x : Byte} {p : List Byte} {k : Word16}

/-! ### R120 to R131: the results -/

/-- Two bytes joined and taken apart again (20_memory R52). -/
theorem le16_append (lo hi : Byte) : le16 (hi ++ lo) = [lo, hi] :=
  congrArg₂ (fun a b => [a, b]) (Laws.WordFields.immField_commandWord hi lo) (Laws.WordFields.opField_commandWord hi lo)

/-- Settles O17: the effect of MSG_ENCODE builds the message, and the payload is written over its own length only. -/
theorem msgEncodeResult : Obligations.MsgEncodeResult := by
  intro s c p hp hin
  have hmsg := (messageIs_buildMessage hp s c).congr (t := (s.buildMessage c p).setErr errOk)
    ⟨rfl, rfl, rfl, fun _ => rfl⟩
  exact ⟨_, exec_next_iff.2 (.encode c hin hp), hmsg, rfl, rfl, rfl, rfl, rfl,
    fun _ ha => Memory.read_writeSeq_out p s.msgPayload ha⟩

/-- Settles O20: the frame is written over the first 4 + n bytes of OUT_BUF and fits its capacity. -/
theorem msgSerializeResult : Obligations.MsgSerializeResult := by
  intro s c p k hmsg h
  have hlen : (frameBytes c s.msgLen p k).length = 4 + p.length := (frameBytes_length ..).trans (Nat.add_comm ..)
  have hcap : (frameBytes c s.msgLen p k).length ≤ outCap := by
    have hbyte := length_le_payloadCap h.length.symm
    rw [frameBytes_length]
    exact Nat.add_le_add_right hbyte 4
  obtain ⟨houtLen, hout⟩ := outputIs_setFrame hcap s
  exact ⟨_, exec_msgSerialize_of_messageIs hmsg h, ⟨houtLen, hout⟩, houtLen.trans hlen, rfl,
    fun a ha => Memory.read_writeSeq_out _ _ (hlen ▸ ha)⟩

/-- Settles O23: the two CRC bytes are those of `hi ++ lo`, so the frame is the one MSG_PARSE takes its fields from. -/
theorem msgParseResult : Obligations.MsgParseResult := by
  intro s c len lo hi p hp hframe hfit
  rw [← le16_append lo hi] at hframe
  have hmsg := (messageIs_setMessage hp s c (hi ++ lo)).congr
    (t := ((s.setMessage c len p (hi ++ lo)).messageReplaced).setErr errOk) ⟨rfl, rfl, rfl, fun _ => rfl⟩
  exact ⟨_, exec_next_iff.2 (.parse hp hframe hfit), hmsg, rfl, rfl, rfl, rfl, rfl,
    fun _ ha => Memory.read_writeSeq_out p s.msgPayload (hp ▸ ha)⟩

/-- Settles O24: both cases are truncated input, which MSG_PARSE rejects by its lengths alone. -/
theorem parseRejectsTruncatedInput : Obligations.ParseRejectsTruncatedInput := fun _ =>
  ⟨fun hshort => exec_msgParse_of_truncated (.inl hshort),
    fun len hlen hshort => exec_msgParse_of_truncated (.inr ⟨len, hlen, hshort⟩)⟩

/-- Settles O25: the CRC recomputed is that of the fields held. -/
theorem msgValidateResult : Obligations.MsgValidateResult := by
  intro s c p k hmsg h
  rw [exec_msgValidate_of_messageIs hmsg h, beq_eq_decide]
  rfl

/-! ### R57: repeated commands -/

/-- The commands whose repetition changes nothing (20_memory R57). -/
def IsRepeatable (i : Instr) : Prop :=
  i = .crcInit ∨ (∃ c, i = .msgEncode c) ∨ i = .msgSerialize ∨ i = .msgParse ∨ i = .msgValidate

/-- Such a command, repeated, has an effect again, and writes the bytes already written to the same places. -/
theorem CommandEffect.repeated (h : CommandEffect s i t) (hi : IsRepeatable i) :
    ∃ m o : Memory, (∀ a, m.read a = t.msgPayload.read a) ∧ (∀ a, o.read a = t.outBuf.read a) ∧
      CommandEffect t i { t with msgPayload := m, outBuf := o } := by
  cases h with
  | crcInit => exact ⟨_, _, fun _ => rfl, fun _ => rfl, .crcInit⟩
  | encodeTooLarge c hlen => exact ⟨_, _, fun _ => rfl, fun _ => rfl, .encodeTooLarge c hlen⟩
  | encode c hin hp => exact ⟨_, _, fun _ => Memory.read_writeSeq_twice .., fun _ => rfl, .encode c hin hp⟩
  | serializeNoMessage hmsg => exact ⟨_, _, fun _ => rfl, fun _ => rfl, .serializeNoMessage hmsg⟩
  | serialize hmsg => exact ⟨_, _, fun _ => rfl, fun _ => Memory.read_writeSeq_twice .., .serialize hmsg⟩
  | parseTruncated htrunc => exact ⟨_, _, fun _ => rfl, fun _ => rfl, .parseTruncated htrunc⟩
  | parse hp hframe hfit => exact ⟨_, _, fun _ => Memory.read_writeSeq_twice .., fun _ => rfl, .parse hp hframe hfit⟩
  | validateNoMessage hmsg => exact ⟨_, _, fun _ => rfl, fun _ => rfl, .validateNoMessage hmsg⟩
  | validate hmsg => exact ⟨_, _, fun _ => rfl, fun _ => rfl, .validate hmsg⟩
  | crcFeed | crcFeedbuf | pingBuild => simp [IsRepeatable] at hi

/-- Settles O26: the repeated command writes the same bytes, and every other field is one it had written already. -/
theorem repeatedCommandsGiveTheSameState : Obligations.RepeatedCommandsGiveTheSameState := by
  refine ⟨fun s hmsg => ⟨⟨_, exec_msgSerialize_of_msgp hmsg, rfl⟩, _, exec_msgValidate_of_msgp hmsg, rfl, rfl⟩,
    fun i s t hi he => ?_⟩
  obtain ⟨m, o, hm, ho, heffect⟩ := (exec_next_iff.1 he).repeated hi
  exact ⟨_, exec_next_iff.2 heffect, rfl, rfl, ⟨rfl, rfl, rfl⟩, ⟨rfl, rfl, rfl, hm⟩, ⟨rfl, ho⟩, ⟨rfl, fun _ => rfl⟩,
    ⟨rfl, rfl, rfl, rfl, rfl, rfl⟩, rfl, rfl⟩

/-! ### R32, R133: what MSG_VALIDATE accepts and detects -/

/-- A message held with the CRC of its own fields validates (10_state R32). -/
theorem exec_msgValidate_of_ownCrc (hmsg : s.msgp = true) (h : MessageIs s c p (fieldsCrc c s.msgLen p)) :
    ∃ u, exec .msgValidate s = .next u ∧ u.valid = true ∧ u.checked = true ∧ u.err = errOk :=
  ⟨_, exec_msgValidate_of_messageIs hmsg h, beq_self_eq_true _, rfl, rfl⟩

theorem pingPayloadNow_length_le (s : State) : (pingPayloadNow s).length ≤ 255 := by
  rw [pingPayloadNow_length]
  decide

/-- Settles O27: the encode path stores the CRC of the fields it stores, and writing the ping's frame keeps them. -/
theorem builtMessagesValidate : Obligations.BuiltMessagesValidate := by
  intro i s t hi he herr
  cases exec_next_iff.1 he with
  | encode c hin hp =>
    exact exec_msgValidate_of_ownCrc rfl ((messageIs_buildMessage hp s c).congr ⟨rfl, rfl, rfl, fun _ => rfl⟩)
  | pingBuild =>
    exact exec_msgValidate_of_ownCrc rfl
      ((messageIs_buildMessage (pingPayloadNow_length_le s) s.countTimeDraw cmdPing).congr
        ⟨rfl, rfl, rfl, fun _ => rfl⟩)
  | encodeTooLarge => exact absurd (show errPayloadTooLarge = 0#3 from herr) (by decide)
  | _ => simp at hi

/-- A changed byte of commandId or payload changes the CRC of the fields. -/
theorem fieldsCrc_ne_of_set {c' : Byte} {p' : List Byte} {j : Nat} (hj : j < (c :: p).length)
    (hne : (c :: p)[j]? ≠ some x) (hset : c' :: p' = (c :: p).set j x) : fieldsCrc c' n p' ≠ fieldsCrc c n p := by
  cases j with
  | zero =>
    obtain ⟨rfl, rfl⟩ := List.cons.inj hset
    exact crcOf_set_ne (p := c :: n :: p') (j := 0) (by simp) hne
  | succ j =>
    obtain ⟨rfl, rfl⟩ := List.cons.inj hset
    exact crcOf_set_ne (p := c' :: n :: p) (j := j + 2) (by simpa using hj) hne

/-- MSG_PARSE of a frame within IN_LEN holds its fields, its CRC right or wrong. -/
theorem exec_msgParse_messageIs (hp : p.length = n.toNat) (hframe : s.inBuf.Holds 0 (frameBytes c n p k))
    (hfit : 4 + n.toNat ≤ s.inLen.toNat) :
    ∃ t, exec .msgParse s = .next t ∧ t.err = errOk ∧ t.msgp = true ∧ t.msgLen = n ∧ MessageIs t c p k :=
  ⟨_, exec_msgParse_of_frame hp hframe hfit, rfl, rfl, rfl,
    (messageIs_setMessage hp s c k).congr ⟨rfl, rfl, rfl, fun _ => rfl⟩⟩

/-- Settles O29: the changed frame parses to the changed fields, whose CRC is not the one it ends with. -/
theorem singleByteCorruptionIsDetected : Obligations.SingleByteCorruptionIsDetected := by
  intro s c c' len x p p' j hp hj hne hset hframe hfit
  have hp' : p'.length = len.toNat := by
    have hlen := congrArg List.length hset
    simp only [List.length_cons, List.length_set] at hlen
    omega
  obtain ⟨t, hparse, herr, hmsg, hlen, hheld⟩ := exec_msgParse_messageIs hp' hframe hfit
  have hcrc : fieldsCrc c' t.msgLen p' ≠ fieldsCrc c len p := hlen ▸ fieldsCrc_ne_of_set hj hne hset
  exact ⟨t, _, hparse, herr, exec_msgValidate_of_messageIs hmsg hheld, beq_false_of_ne hcrc, rfl, rfl⟩

/-- The frame of 95_test_vectors V-C4 after the change of its length byte from 4 to 2. -/
def shortenedFrame : List Byte := [0xFC#8, 2#8, 0x00#8, 0x00#8, 0x86#8, 0x56#8, 0x98#8, 0x3B#8]

/-- Settles O30 with V-C4: the bytes 86 56 of the payload become the CRC of the two bytes before them. -/
theorem lengthByteChangeCanStillValidate : Obligations.LengthByteChangeCanStillValidate := by
  have hvalid : shortenedFrame = [0xFC#8, 2#8] ++ [0x00#8, 0x00#8, 0x86#8, 0x56#8] ++
      le16 (crcOf 0xFFFF#16 ([0xFC#8, 4#8] ++ [0x00#8, 0x00#8, 0x86#8, 0x56#8])) := by decide
  have hparts : shortenedFrame = frameBytes 0xFC#8 2#8 [0x00#8, 0x00#8] 0x5686#16 ++ [0x98#8, 0x3B#8] := by decide
  have hcrc : fieldsCrc 0xFC#8 2#8 [0x00#8, 0x00#8] = 0x5686#16 := by decide
  have hin : InputIs { State.reset with inBuf := Memory.writeSeq [] 0 shortenedFrame, inLen := 8#16 } shortenedFrame :=
    ⟨rfl, Memory.holds_writeSeq [] 0 shortenedFrame⟩
  have hframe := (Memory.holds_append.1 (hparts ▸ hin.2)).1
  obtain ⟨t, hparse, herr, hmsg, hlen, hheld⟩ := exec_msgParse_messageIs rfl hframe (by decide)
  obtain ⟨u, hvalidate, hok, hchecked, herr'⟩ := exec_msgValidate_of_ownCrc hmsg (hlen.symm ▸ hcrc.symm ▸ hheld)
  exact ⟨_, t, u, 0xFC#8, 4#8, 2#8, [0x00#8, 0x00#8, 0x86#8, 0x56#8], [0x00#8, 0x00#8], 0x5686#16, rfl, by decide,
    hvalid ▸ hin, hparse, herr, hheld, hlen, hvalidate, herr', hchecked, hok⟩

/-! ### R120 to R130: the frames -/

/-- Settles O31: the payload written has IN_LEN bytes. -/
theorem msgEncodeFrame : Obligations.MsgEncodeFrame := by
  intro s t c he
  have hsurr := exec_sameSurroundings he
  have hin := exec_sameInput he
  cases exec_next_iff.1 he with
  | encodeTooLarge _ hlen =>
    exact ⟨rfl, hin, ⟨rfl, fun _ => rfl⟩, hsurr, rfl, fun _ _ _ => rfl,
      fun _ => ⟨⟨rfl, rfl, rfl, fun _ => rfl⟩, ⟨rfl, rfl, rfl⟩, rfl⟩⟩
  | encode _ hinput hp =>
    obtain ⟨hlen, -⟩ := hinput
    exact ⟨rfl, hin, ⟨rfl, fun _ => rfl⟩, hsurr, rfl,
      fun _ a ha => Memory.read_writeSeq_out _ s.msgPayload (hlen ▸ ha), fun hlong => absurd hlong (by omega)⟩

/-- Settles O32: the frame written has 4 + MSG_LEN bytes. -/
theorem msgSerializeFrame : Obligations.MsgSerializeFrame := by
  intro s t he
  have hsurr := exec_sameSurroundings he
  have hin := exec_sameInput he
  cases exec_next_iff.1 he with
  | serializeNoMessage hmsg =>
    exact ⟨rfl, hin, ⟨rfl, rfl, rfl, fun _ => rfl⟩, ⟨rfl, rfl, rfl⟩, hsurr, rfl, rfl, fun _ _ => rfl,
      fun _ => ⟨rfl, fun _ => rfl⟩⟩
  | serialize hmsg =>
    refine ⟨rfl, hin, ⟨rfl, rfl, rfl, fun _ => rfl⟩, ⟨rfl, rfl, rfl⟩, hsurr, rfl, rfl, fun a ha => ?_,
      fun hno => absurd (hmsg.symm.trans hno) (by decide)⟩
    exact Memory.read_writeSeq_out _ s.outBuf (by rw [frameBytes_length, payloadBytes_length]; omega)

/-- Settles O33: the payload taken has IN_BUF[1] bytes. -/
theorem msgParseFrame : Obligations.MsgParseFrame := by
  intro s t he
  have hsurr := exec_sameSurroundings he
  have hin := exec_sameInput he
  cases exec_next_iff.1 he with
  | parseTruncated =>
    exact ⟨rfl, hin, ⟨rfl, fun _ => rfl⟩, hsurr, rfl, rfl, fun _ _ _ _ => rfl,
      fun _ => ⟨⟨rfl, rfl, rfl, fun _ => rfl⟩, rfl, rfl, rfl⟩⟩
  | parse hp hframe =>
    obtain ⟨-, hlength, -⟩ := (Memory.holds_frameBytes hp).1 hframe
    refine ⟨rfl, hin, ⟨rfl, fun _ => rfl⟩, hsurr, rfl, rfl, fun len hlen a ha => ?_, fun herr => absurd rfl herr⟩
    obtain rfl := Option.some.inj (hlength.symm.trans hlen)
    exact Memory.read_writeSeq_out _ s.msgPayload (hp ▸ ha)

/-- Settles O34: the check writes CHECKED, VALID and SCRATCH, the error ERR alone. -/
theorem msgValidateFrame : Obligations.MsgValidateFrame := by
  intro s t he
  have hsurr := exec_sameSurroundings he
  have hin := exec_sameInput he
  cases exec_next_iff.1 he with
  | validateNoMessage =>
    exact ⟨rfl, hin, ⟨rfl, fun _ => rfl⟩, ⟨rfl, rfl, rfl, fun _ => rfl⟩, hsurr, rfl, rfl,
      fun _ => ⟨⟨rfl, rfl, rfl⟩, rfl⟩⟩
  | validate hmsg =>
    exact ⟨rfl, hin, ⟨rfl, fun _ => rfl⟩, ⟨rfl, rfl, rfl, fun _ => rfl⟩, hsurr, rfl, rfl,
      fun hno => absurd (hmsg.symm.trans hno) (by decide)⟩

/-! ### R150, R151: PING_BUILD -/

theorem pingFrame_pingPayloadNow_length (s : State) : (pingFrame (pingPayloadNow s)).length = 14 := by
  rw [pingFrame_length, pingPayloadNow_length]

/-- Settles O35: the payload has 10 bytes whatever T is, so message and frame have fixed lengths. -/
theorem pingBuildResult : Obligations.PingBuildResult := by
  intro s
  have hframe : (pingFrame (pingPayloadNow s)).length ≤ outCap := by rw [pingFrame_pingPayloadNow_length]; decide
  obtain ⟨houtLen, hout⟩ := outputIs_setFrame hframe (s.countTimeDraw.buildMessage cmdPing (pingPayloadNow s))
  exact ⟨_, exec_next_iff.2 .pingBuild,
    (messageIs_buildMessage (pingPayloadNow_length_le s) s.countTimeDraw cmdPing).congr ⟨rfl, rfl, rfl, fun _ => rfl⟩,
    rfl, rfl, ⟨houtLen, hout⟩, rfl, rfl, rfl, rfl, rfl⟩

/-- Settles O36: what MSG_ENCODE leaves held is what MSG_SERIALIZE writes out, and the ping's frame is made of it. -/
theorem pingIsEncodeThenSerialize : Obligations.PingIsEncodeThenSerialize := by
  intro s n m hin
  have hheld := messageIs_buildMessage (pingPayloadNow_length_le s) { s with inLen := n, inBuf := m } cmdPing
  exact ⟨_, _, exec_msgEncode_of_inputIs hin (pingPayloadNow_length_le s) cmdPing,
    exec_msgSerialize_of_messageIs rfl (hheld.congr ⟨rfl, rfl, rfl, fun _ => rfl⟩), rfl⟩

/-- Settles O37: the payload has 10 bytes and the frame 14. -/
theorem pingBuildFrame : Obligations.PingBuildFrame := by
  intro s t he
  have hsurr := exec_sameSurroundings he
  have hin := exec_sameInput he
  cases exec_next_iff.1 he
  exact ⟨rfl, hin, hsurr, rfl,
    fun a ha => Memory.read_writeSeq_out _ s.msgPayload ((pingPayloadNow_length s).trans_le ha),
    fun a ha => Memory.read_writeSeq_out _ s.outBuf ((pingFrame_pingPayloadNow_length s).trans_le ha)⟩

end Sys2Proof.Machine
end

section
/-! PROOFS. Errors and faults (60_exceptions), who writes what (10_state), and the host's side of the block (20_memory,
70_reset). -/

namespace Sys2Proof.Machine

variable {s t : State} {i : Instr}

/-! ### R161 to R163: the errors -/

/-- Settles O38: the effects with an error are the updates of ERR alone. -/
theorem errorsChangeErrOnly : Obligations.ErrorsChangeErrOnly := by
  intro i s t he herr
  cases exec_next_iff.1 he with
  | encodeTooLarge | serializeNoMessage | parseTruncated | validateNoMessage => rfl
  | _ => exact absurd rfl herr

/-- Settles O39: each effect carries the condition of its error, or of its success. -/
theorem eachCommandRaisesItsErrorExactlyWhenDue : Obligations.EachCommandRaisesItsErrorExactlyWhenDue := by
  intro i s t he
  cases exec_next_iff.1 he with
  | crcInit | crcFeed | crcFeedbuf | pingBuild => rfl
  | encodeTooLarge c hlen => exact (if_pos hlen).symm
  | encode c hin hp => exact (if_neg (Nat.not_lt.mpr (hin.1 ▸ hp))).symm
  | serializeNoMessage hmsg | validateNoMessage hmsg => exact (if_neg (Bool.not_eq_true _ ▸ hmsg)).symm
  | serialize hmsg | validate hmsg => exact (if_pos hmsg).symm
  | parseTruncated htrunc => exact .inl ⟨rfl, htrunc⟩
  | parse hp hframe hfit =>
    obtain ⟨-, hlen, -⟩ := (Memory.holds_frameBytes hp).1 hframe
    exact .inr ⟨rfl, _, hlen, hfit⟩

/-! ### R165, R166, R169: the faults -/

/-- Settles O40: the four ways a command stops at the first unwritten byte. -/
theorem unwrittenInputFaults : Obligations.UnwrittenInputFaults := by
  intro s k hk hbefore hbelow
  have hfirst : FirstUnwritten s.inBuf s.inLen.toNat k := ⟨hk, hbefore, hbelow⟩
  have hfault {i : Instr} (h : CommandFault s.inBuf s.inLen.toNat i k) : exec i s = .fault (.unwrittenInput k) :=
    exec_fault_iff.2 ⟨k, rfl, h⟩
  exact ⟨hfault (.crcFeedbuf hfirst), fun c hlen => hfault (.msgEncode c hfirst hlen),
    fun hhead hlong hlen => hfault (.parseLength hfirst hhead hlong hlen),
    fun len hlen hframe hfit => hfault (.parseFrame hfirst hlen hframe hfit)⟩

theorem CommandFault.firstUnwritten {m : Memory} {l j : Nat} (h : CommandFault m l i j) : FirstUnwritten m l j := by
  cases h <;> assumption

theorem CommandFault.command {m : Memory} {l j : Nat} (h : CommandFault m l i j) :
    i = .crcFeedbuf ∨ (∃ c, i = .msgEncode c) ∨ i = .msgParse := by
  cases h <;> simp

/-- Settles O41: a fault is one of these four ways. -/
theorem onlyUnwrittenInputStopsACommand : Obligations.OnlyUnwrittenInputStopsACommand := by
  refine fun i s => ⟨exec_ne_refused i s, fun f hf => ?_⟩
  obtain ⟨j, rfl, h⟩ := exec_fault_iff.1 hf
  obtain ⟨hunwritten, -, hbelow⟩ := h.firstUnwritten
  exact ⟨h.command, j, rfl, hbelow, hunwritten⟩

theorem issueCommand_ne_refused (w : Word16) (s : State) (r : Refusal) : issueCommand w s ≠ .refused r := by
  unfold issueCommand
  split
  · exact exec_ne_refused _ _ r
  · nofun

/-- Every host operation but a write to CMD completes (60_exceptions R169). -/
theorem hostOp_completes {op : HostOp} (hop : ∀ w, op ≠ .regWrite regCmd w) (s : State) :
    ∃ t, hostOp op s = .next t := by
  cases op with
  | regRead | bufRead | bufWrite | reset => exact ⟨_, rfl⟩
  | regWrite n v =>
    have hcmd : n ≠ regCmd := by rintro rfl; exact hop v rfl
    rw [hostOp, regWrite, if_neg hcmd]
    split_ifs <;> exact ⟨_, rfl⟩

/-- Settles O42: a step idles, takes a write to CMD, or takes an operation that completes. -/
theorem hostOperationsCompleteAtAllTimes : Obligations.HostOperationsCompleteAtAllTimes := by
  intro s
  cases hops : s.hostOps with
  | nil => rw [step_idle hops]; exact ⟨nofun, nofun⟩
  | cons op rest =>
    by_cases hop : ∃ w, op = .regWrite regCmd w
    · obtain ⟨w, rfl⟩ := hop
      rw [step_regWrite_cmd hops]
      exact ⟨issueCommand_ne_refused w _, fun _ _ => ⟨w, rest, rfl⟩⟩
    · obtain ⟨t, ht⟩ := hostOp_completes (fun w hw => hop ⟨w, hw⟩) (s.accept rest)
      rw [step_cons hops, ht]
      exact ⟨nofun, nofun⟩

/-! ### R26 to R37: who writes what -/

/-- Settles O45: no command's effect writes the input or what no command touches. -/
theorem noCommandWritesItsInput : Obligations.NoCommandWritesItsInput :=
  fun _ _ _ he => ⟨exec_sameInput he, exec_sameSurroundings he⟩

/-- No host access writes the MSG group or MSGP (10_state R27). -/
theorem HostAccess.sameMessage (h : HostAccess s t) : SameMessage s t ∧ t.msgp = s.msgp := by
  cases h <;> exact ⟨⟨rfl, rfl, rfl, fun _ => rfl⟩, rfl⟩

/-- No host access writes the output (10_state R36, R37). -/
theorem HostAccess.sameOutput (h : HostAccess s t) : SameOutput s t := by
  cases h <;> exact ⟨rfl, fun _ => rfl⟩

/-- Settles O43: a step that changes the MSG group is a Reset or issues one of the commands that take a message. -/
theorem messageIsWrittenByItsCommandsOnly : Obligations.MessageIsWrittenByItsCommandsOnly := by
  intro s t hstep hchanged
  have hunchanged (hsame : SameMessage s t) (hmsg : t.msgp = s.msgp) : False :=
    hchanged.elim (fun h => h hsame) (fun h => h hmsg)
  obtain rfl | ⟨rest, hops, -⟩ | ⟨w, rest, hops, hissue⟩ | ⟨rest, haccess⟩ := step_next_cases hstep
  · exact (hunchanged ⟨rfl, rfl, rfl, fun _ => rfl⟩ rfl).elim
  · exact .inl ⟨rest, hops⟩
  · obtain ⟨i, hdec, he⟩ | ⟨e, -, rfl⟩ := issueCommand_next hissue
    · obtain ⟨hmsg, hcmd, hlen, hcrc, hpay⟩ | ⟨hi, herr, hmsg, -⟩ := exec_message he
      · exact (hunchanged ⟨hcmd, hlen, hcrc, fun _ => by rw [hpay]; rfl⟩ hmsg).elim
      · exact .inr ⟨w, rest, i, hops, hdec, hi, herr, hmsg⟩
    · exact (hunchanged ⟨rfl, rfl, rfl, fun _ => rfl⟩ rfl).elim
  · obtain ⟨hsame, hmsg⟩ := haccess.sameMessage
    exact (hunchanged hsame hmsg).elim

/-- Settles O44: a step that changes the output is a Reset or issues one of the commands that write a frame. -/
theorem outputIsWrittenByItsCommandsOnly : Obligations.OutputIsWrittenByItsCommandsOnly := by
  intro s t hstep hchanged
  obtain rfl | ⟨rest, hops, -⟩ | ⟨w, rest, hops, hissue⟩ | ⟨rest, haccess⟩ := step_next_cases hstep
  · exact absurd ⟨rfl, fun _ => rfl⟩ hchanged
  · exact .inl ⟨rest, hops⟩
  · obtain ⟨i, hdec, he⟩ | ⟨e, -, rfl⟩ := issueCommand_next hissue
    · obtain ⟨hlen, hbuf⟩ | ⟨hi, herr, -⟩ := exec_output he
      · exact absurd ⟨hlen, fun _ => by rw [hbuf]; rfl⟩ hchanged
      · exact .inr ⟨w, rest, i, hops, hdec, hi, herr⟩
    · exact absurd ⟨rfl, fun _ => rfl⟩ hchanged
  · exact absurd haccess.sameOutput hchanged

/-- Without a held message a command has the same effect whatever the MSG group is, up to the MSG group itself. -/
theorem CommandEffect.withMessage (h : CommandEffect s i t) (hmsg : s.msgp = false) (c n : Byte) (k : Word16)
    (m : Memory) : ∃ c' n' k' m', CommandEffect { s with msgCmd := c, msgLen := n, msgCrc := k, msgPayload := m } i
      { t with msgCmd := c', msgLen := n', msgCrc := k', msgPayload := m' } := by
  cases h with
  | crcInit => exact ⟨_, _, _, _, .crcInit⟩
  | crcFeed b => exact ⟨_, _, _, _, .crcFeed b⟩
  | crcFeedbuf hin => exact ⟨_, _, _, _, .crcFeedbuf hin⟩
  | encodeTooLarge c hlen => exact ⟨_, _, _, _, .encodeTooLarge c hlen⟩
  | encode c hin hp => exact ⟨_, _, _, _, .encode c hin hp⟩
  | serializeNoMessage => exact ⟨_, _, _, _, .serializeNoMessage hmsg⟩
  | parseTruncated htrunc => exact ⟨_, _, _, _, .parseTruncated htrunc⟩
  | parse hp hframe hfit => exact ⟨_, _, _, _, .parse hp hframe hfit⟩
  | validateNoMessage => exact ⟨_, _, _, _, .validateNoMessage hmsg⟩
  | pingBuild => exact ⟨_, _, _, _, .pingBuild⟩
  | serialize hheld | validate hheld => exact absurd (hmsg.symm.trans hheld) (by decide)

/-- Settles O47: the other state's effect differs in the MSG group alone. -/
theorem messageFieldsUnusedWithoutMessage : Obligations.MessageFieldsUnusedWithoutMessage := by
  intro i s t c n k m hmsg he
  obtain ⟨_, _, _, _, heffect⟩ := (exec_next_iff.1 he).withMessage hmsg c n k m
  exact ⟨_, exec_next_iff.2 heffect, rfl, rfl, ⟨rfl, rfl, rfl⟩, ⟨rfl, fun _ => rfl⟩, rfl⟩

/-! ### The host's side of the block -/

/-- Settles O6: the write issues the word, and the word is the command's. -/
theorem stepRunsTheDecodedCommand : Obligations.StepRunsTheDecodedCommand :=
  fun _ _ _ _ hops hdec _ => (step_regWrite_cmd hops).trans (issueCommand_of_decode hdec)

/-- Settles O8: the step looks at the pending operations first. -/
theorem blockIsIdleWithoutHostOperation : Obligations.BlockIsIdleWithoutHostOperation := fun _ => step_idle

/-- Settles O48: for each of the fields' values, since no other bit is in the word. -/
theorem statusWordLayout : Obligations.StatusWordLayout := by
  have hfields : ∀ (m v c : Bool) (e : BitVec 3),
      let w := 0#2 ++ BitVec.ofBool m ++ BitVec.ofBool v ++ BitVec.ofBool c ++ e
      w.extractLsb' 0 3 = e ∧ w.getLsbD 3 = c ∧ w.getLsbD 4 = v ∧ w.getLsbD 5 = m ∧ w.extractLsb' 6 2 = 0#2 := by
    decide
  exact fun s => hfields s.msgp s.valid s.checked s.err

theorem regWrite_inLen (v : Word16) (s : State) :
    regWrite regInLen v s = .next { s with inLen := if v.toNat ≤ Config.inCap then v else s.inLen } := by
  have hne : regInLen ≠ regCmd := by decide
  rw [regWrite, if_neg hne, if_pos rfl]
  split <;> rfl

theorem regWrite_verMaj (v : Word16) (s : State) : regWrite regVerMaj v s = .next (s.setVerMaj (v.setWidth 8)) := rfl

theorem regWrite_verMin (v : Word16) (s : State) : regWrite regVerMin v s = .next (s.setVerMin (v.setWidth 8)) := rfl

/-- Settles O51: each write is to the register of its number, and the low byte is the word cut to 8 bits. -/
theorem writableRegistersTakeTheirBits : Obligations.WritableRegistersTakeTheirBits := by
  intro s v rest
  rw [← BitVec.setWidth_eq_extractLsb' (by decide)]
  exact ⟨fun hops => (step_cons hops).trans (regWrite_inLen v _),
    fun hops => (step_cons hops).trans (regWrite_verMaj v _), fun hops => (step_cons hops).trans (regWrite_verMin v _)⟩

theorem bufByte_inBuf_of_lt_cap {j : BitVec 16} (hj : j.toNat < Config.inCap) (s : State) :
    bufByte (.inBuf j) s = s.inBuf.read j.toNat := by
  simp only [bufByte, if_pos hj]

theorem bufWrite_inBuf_of_lt_cap {j : BitVec 16} (hj : j.toNat < Config.inCap) (b : Byte) (s : State) :
    bufWrite (.inBuf j) b s = s.setInByte j.toNat b := by
  simp only [bufWrite, if_pos hj]

/-- Settles O52: below capacity, and below the length of what is held, the byte is the buffer's. -/
theorem bufReadReturnsTheByte : Obligations.BufReadReturnsTheByte := by
  refine fun s b rest => ⟨fun j hops hcap hb => ?_, fun j hops hcap hlen hb => ?_, fun j hops hcap hmsg hlen hb => ?_⟩
  · exact step_bufRead_of_bufByte hops ((bufByte_inBuf_of_lt_cap hcap _).trans hb)
  · exact step_bufRead_of_bufByte hops ((if_pos hcap).trans ((if_pos hlen).trans hb))
  · exact step_bufRead_of_bufByte hops ((if_pos hcap).trans ((if_pos ⟨hmsg, hlen⟩).trans hb))

/-- Settles O53, buffer by buffer: none gives the byte a value there, so the read is a draw. -/
theorem unspecifiedBufReadIsADraw : Obligations.UnspecifiedBufReadIsADraw := by
  intro s a rest hops hunspecified
  have hnone : bufByte a (s.accept rest) = none := by
    cases a with
    | inBuf j =>
      obtain ⟨hcap, hread⟩ := hunspecified
      exact (bufByte_inBuf_of_lt_cap hcap _).trans hread
    | outBuf j =>
      obtain ⟨hcap, hlen⟩ := hunspecified
      exact (if_pos hcap).trans (if_neg (Nat.not_lt.mpr hlen))
    | payload j =>
      obtain ⟨hcap, hnot⟩ := hunspecified
      refine (if_pos hcap).trans (if_neg fun ⟨hmsg, hlt⟩ => ?_)
      obtain hno | hlen := hnot
      · exact absurd (hmsg.symm.trans hno) (by decide)
      · exact absurd hlt (Nat.not_lt.mpr hlen)
  exact (step_cons hops).trans (congrArg Host.Outcome.next (bufRead_of_unspecified hnone))

/-- Settles O55: the buffer after the write is the old one with that byte written. -/
theorem bufWriteThenReadReturnsTheByte : Obligations.BufWriteThenReadReturnsTheByte := by
  intro s j b rest hcap hops
  have hwrite := (step_cons hops).trans (congrArg Host.Outcome.next (bufWrite_inBuf_of_lt_cap hcap b _))
  have hread := (bufByte_inBuf_of_lt_cap hcap ((s.accept rest).setInByte j.toNat b)).trans
    (Memory.read_write_same s.inBuf j.toNat b)
  exact ⟨s.inBuf.write j.toNat b, _, hwrite, fun a ha => Memory.read_write_other s.inBuf b ha,
    step_bufRead_of_bufByte rfl hread, rfl⟩

/-- Settles O57: Reset writes every register and empties every buffer. -/
theorem resetLeavesTheResetValues : Obligations.ResetLeavesTheResetValues := by
  have hstatus : statusWord State.reset = 0x00#8 := by decide
  exact ⟨⟨rfl, hstatus, rfl, rfl, rfl, rfl, rfl, rfl, rfl, rfl, fun _ => ⟨rfl, rfl, rfl⟩⟩, fun s rest hops =>
    ⟨hostReset (s.accept rest), step_cons hops,
      ⟨rfl, hstatus, rfl, rfl, rfl, rfl, rfl, rfl, rfl, rfl, fun _ => ⟨rfl, rfl, rfl⟩⟩, rfl⟩⟩

end Sys2Proof.Machine
end
